-- ==== Sys2Proof/Word.lean ====
section
/-! DEFINITION. The byte and the nine-byte frame, the one indexed object of the Frame Codec (00_scope.md R5, R12; 20_memory.md R33). -/

namespace Sys2Proof

/-- A byte: eight bits, bit 7 the most significant (R11). -/
abbrev Byte := BitVec 8

/-- A frame: nine bytes, indices 0 to 8 (R5, R12). `b0` is the start byte, `b8` the checksum byte. -/
@[ext] structure Frame where
  b0 : Byte
  b1 : Byte
  b2 : Byte
  b3 : Byte
  b4 : Byte
  b5 : Byte
  b6 : Byte
  b7 : Byte
  b8 : Byte
  deriving DecidableEq, Repr, Inhabited

/-- Nine zero bytes: what `TXF` and `ERAW` hold after reset (R32) and what `ERAW` holds after a wrong length (R94). -/
def Frame.zero : Frame := ⟨0, 0, 0, 0, 0, 0, 0, 0, 0⟩

end Sys2Proof
end

