-- ==== Sys2Proof/Syntax.lean ====
section
/-! DEFINITION. The syntax: every row of spec/opcode_table.json as a constructor of `Instr`, the encoded forms they are decoded from, the textual calls of 30_encoding.md R65, and the events outside the FC (43_transactions.md R104). -/

namespace Sys2Proof

/-- The operand fields a request presents beside its operation select (10_state.md R26): `EN`, `DIN[0..8]`, `DLEN[3:0]`.
All three are always present; an operation ignores those it does not read (30_encoding.md R63). -/
structure Operands where
  en   : Bool
  din  : Frame
  dlen : BitVec 4
  deriving DecidableEq, Repr

/-- The rows of spec/opcode_table.json, in the table's order. -/
inductive Instr where
  /-- BLDRD (41_encode.md R78) -/
  | bldrd (o : Operands)
  /-- BLDZERO (R79) -/
  | bldzero (o : Operands)
  /-- BLDACAL (R80) -/
  | bldacal (o : Operands)
  /-- CKSUM (40_checksum.md R72) -/
  | cksum (o : Operands)
  /-- PARSE (42_decode.md R94) -/
  | parse (o : Operands)
  /-- REQ.RESERVED_5 (30_encoding.md R62) -/
  | reqReserved5 (o : Operands)
  /-- REQ.RESERVED_6_7, with the `OP` it was presented with (R62) -/
  | reqReserved67 (op : BitVec 3) (o : Operands)
  /-- CMD.READ_CO2: the complete command frame (R49) -/
  | cmdReadCo2
  /-- CMD.CAL_ZERO (R49) -/
  | cmdCalZero
  /-- CMD.ACAL_ON (R49) -/
  | cmdAcalOn
  /-- CMD.ACAL_OFF (R49) -/
  | cmdAcalOff
  /-- RSP.CO2: a response frame `FF 86 hh ll rr rr rr rr cc` (R52) -/
  | rspCo2 (f : Frame)
  /-- READCO2 (43_transactions.md R98) -/
  | readco2
  /-- CALZERO (R99) -/
  | calzero
  /-- SETACAL e, `e` = enable (R100) -/
  | setacal (e : Bool)
  deriving DecidableEq, Repr

/-- The three requester-side sequences; they have no request word and are presented by name (30_encoding.md R66). -/
inductive Transaction where
  | readco2
  | calzero
  | setacal (e : Bool)
  deriving DecidableEq, Repr, Inhabited

/-- What can be presented, encoded, to the machine.
* `port`: the four-bit request word `REQ = EN ++ OP` with `DIN` and `DLEN` beside it (R26, R56).
* `command`: a CMD9 frame, from FC to sensor (R47; log 3).
* `received`: nine bytes from sensor to FC (R52; log 4).
* `transaction`: a requester-side sequence, by name (R66).
CMD9 is never applied to a received frame and RSP9 never to a built one (R53): the direction is part of the form. -/
inductive Request where
  | port (req : BitVec 4) (din : Frame) (dlen : BitVec 4)
  | command (f : Frame)
  | received (f : Frame)
  | transaction (t : Transaction)
  deriving DecidableEq, Repr, Inhabited

/-- What the outside does next: presents a request (R104), resets the FC (70_reset_and_hazards.md R127), opens or closes the
transport (43_transactions.md R106). -/
inductive Event where
  | request (r : Request)
  | reset
  | openTransport
  | closeTransport
  deriving DecidableEq, Repr, Inhabited

/-- The textual syntax of a request (R65) and of the pseudo-operations (R66). `parse n raw` is `PARSE n: b0 ... `; `raw` holds
the bytes that are written out. -/
inductive Call where
  | bldrd
  | bldzero
  | bldacal (e : Bool)
  | cksum (f : Frame)
  | parse (n : BitVec 4) (raw : List Byte)
  | readco2
  | calzero
  | setacal (e : Bool)
  deriving DecidableEq, Repr

end Sys2Proof
end

