-- ==== Sys2Proof/Config.lean ====
section
/-! DEFINITION. What the specification leaves open: the answers of the transport (parameter TRANSPORT, 43_transactions.md R97, R103)
and the infinite sequences of requests (parameter REQUESTS, R104).
They are opaque constants with no body, so no proof can know one: a claim about a free answer is a claim about every answer (logs 6, 17). -/

namespace Sys2Proof

/-- What `open` answers: a handle, or ConnectionError (R97, R113). -/
inductive OpenAnswer where
  | connectionError
  | handle
  deriving DecidableEq, Repr, Inhabited

/-- What `write` answers: a count of bytes, 0 to 9, or IOError (R97, R114). -/
inductive WriteAnswer where
  | ioError
  | count (n : Fin 10)
  deriving DecidableEq, Repr, Inhabited

/-- What `read` answers: the count of bytes stored, 0 to 9, with the buffer they were stored in, or IOError (R97).
The lanes of the buffer at indices `>= n` hold no received byte (R36, R98). -/
inductive ReadAnswer where
  | ioError
  | count (n : Fin 10) (buf : Frame)
  deriving DecidableEq, Repr, Inhabited

/-- What `close` answers: nothing, or IOError (R97). -/
inductive CloseAnswer where
  | ioError
  | closed
  deriving DecidableEq, Repr, Inhabited

namespace Config

/-- The free answer of the transport's k-th uncanned call, were it an `open` (R103, D19; log 6). -/
opaque freeOpen : Nat → OpenAnswer

/-- The free answer of the transport's k-th uncanned call, were it a `write` (R103, D19; log 6). -/
opaque freeWrite : Nat → WriteAnswer

/-- The free answer of the transport's k-th uncanned call, were it a `read` (R103, D19; log 6). -/
opaque freeRead : Nat → ReadAnswer

/-- The free answer of the transport's k-th uncanned call, were it a `close` (R103, D19; log 6). -/
opaque freeClose : Nat → CloseAnswer

/-- The free infinite sequence of what the outside does (R104, D17; log 17): its k-th event. -/
opaque freeEvent : Nat → Event

end Config

end Sys2Proof
end

