-- ==== Sys2Proof/Machine/Constants.lean ====
section
/-! DEFINITION. The constants of the protocol (00_scope.md R5 to R9), the status codes (10_state.md R21) and the operation-select codes (30_encoding.md R57), each named once. -/

namespace Sys2Proof.Machine

/-- FRAME_LEN (R5): the expected count of a received frame. -/
def frameLen : Nat := 9

/-- START (R6): byte 0 of every frame. -/
def startByte : Byte := 0xFF

/-- ADDR (R6): byte 1 of a command frame. -/
def addrByte : Byte := 0x01

/-- OPC_READ_CO2 (R7); also the echoed opcode that byte 1 of a CO2 response must equal (R52, R53). -/
def opcReadCo2 : Byte := 0x86

/-- OPC_CAL_ZERO (R7). -/
def opcCalZero : Byte := 0x87

/-- OPC_ACAL (R7): one opcode for enable and disable (R50). -/
def opcAcal : Byte := 0x79

/-- ACAL_ON_BYTE (R8): byte 3 of the enable command. -/
def acalOnByte : Byte := 0xA0

/-- ST_NONE (R21): no PARSE since reset. -/
def stNone : BitVec 3 := 0

/-- ST_OK (R21). -/
def stOk : BitVec 3 := 1

/-- ST_LEN (R21): FrameLengthError. -/
def stLen : BitVec 3 := 2

/-- ST_HDR (R21): FrameHeaderError. -/
def stHdr : BitVec 3 := 3

/-- ST_CKS (R21): FrameChecksumError. -/
def stCks : BitVec 3 := 4

/-- `OP` of BLDRD (R57). -/
def opBldrd : BitVec 3 := 0

/-- `OP` of BLDZERO (R57). -/
def opBldzero : BitVec 3 := 1

/-- `OP` of BLDACAL (R57). -/
def opBldacal : BitVec 3 := 2

/-- `OP` of CKSUM (R57). -/
def opCksum : BitVec 3 := 3

/-- `OP` of PARSE (R57). -/
def opParse : BitVec 3 := 4

/-- The reserved `OP` of the row REQ.RESERVED_5 (R62). -/
def opReserved5 : BitVec 3 := 5

/-- CMD.READ_CO2, the first frame of R49, as the table writes it out. -/
def readCo2Frame : Frame := ⟨0xFF, 0x01, 0x86, 0x00, 0x00, 0x00, 0x00, 0x00, 0x79⟩

/-- CMD.CAL_ZERO, the second frame of R49. -/
def calZeroFrame : Frame := ⟨0xFF, 0x01, 0x87, 0x00, 0x00, 0x00, 0x00, 0x00, 0x78⟩

/-- CMD.ACAL_ON, the third frame of R49. -/
def acalOnFrame : Frame := ⟨0xFF, 0x01, 0x79, 0xA0, 0x00, 0x00, 0x00, 0x00, 0xE6⟩

/-- CMD.ACAL_OFF, the fourth frame of R49. -/
def acalOffFrame : Frame := ⟨0xFF, 0x01, 0x79, 0x00, 0x00, 0x00, 0x00, 0x00, 0x86⟩

/-- The four complete command frames, in the order of R49. -/
def commandFrames : List Frame := [readCo2Frame, calZeroFrame, acalOnFrame, acalOffFrame]

/-- The first two bytes of RSP9 (R52): the match/mask condition of the row RSP.CO2, byte by byte. -/
def hasResponseHeader (f : Frame) : Bool := f.b0 == startByte && f.b1 == opcReadCo2

end Sys2Proof.Machine
end

