-- ==== Sys2Proof/WellFormed.lean ====
section
/-! DEFINITION. Which instructions have an encoding: a response frame has the header of its row, and the row REQ.RESERVED_6_7 stands for `OP` 6 and 7 only.
Every other operand may take every value of its type (30_encoding.md R64; 42_decode.md R85). -/

namespace Sys2Proof

/-- The check on an instruction's operands. RSP.CO2: byte 0 is `0xFF` and byte 1 is `0x86` (R52; the checksum is no match/mask
condition and is PARSE's to judge). REQ.RESERVED_6_7: `OP` is `0b110` or `0b111` (R62). -/
def Instr.wellFormed : Instr → Bool
  | .bldrd _ => true
  | .bldzero _ => true
  | .bldacal _ => true
  | .cksum _ => true
  | .parse _ => true
  | .reqReserved5 _ => true
  | .reqReserved67 op _ => op == 6 || op == 7
  | .cmdReadCo2 => true
  | .cmdCalZero => true
  | .cmdAcalOn => true
  | .cmdAcalOff => true
  | .rspCo2 f => Machine.hasResponseHeader f
  | .readco2 => true
  | .calzero => true
  | .setacal _ => true

end Sys2Proof
end

