-- ==== Sys2Proof/Decode.lean ====
section
/-! DEFINITION. Decoding what is presented to the machine, total and rejecting by name; after it the encoder, written from the same tables (30_encoding.md R47 to R66). -/

namespace Sys2Proof

open Machine

/-- Why something presented is no instruction. -/
inductive Reject where
  /-- a command frame that is none of the four of R49: the FC cannot build it (R61, U12) -/
  | notACommandFrame
  /-- a request word that no row of the REQ table matches (there is none: the table is total, R58, R62) -/
  | noRow
  deriving DecidableEq, Repr

/-- The decoder's answer. -/
inductive Decoded where
  | ok (i : Instr)
  | reject (r : Reject)
  deriving DecidableEq, Repr

/-- A row of the REQ table: the match/mask pair on the four-bit request word (R58) and the instruction it selects. -/
structure ReqRow where
  pattern : BitVec 4
  mask    : BitVec 4
  make    : BitVec 3 → Operands → Instr

/-- The REQ rows of opcode_table.json, in its order (R57, R58, R62). -/
def reqRows : List ReqRow := [
  ⟨0x0, 0x7, fun _ o => .bldrd o⟩,
  ⟨0x1, 0x7, fun _ o => .bldzero o⟩,
  ⟨0x2, 0x7, fun _ o => .bldacal o⟩,
  ⟨0x3, 0x7, fun _ o => .cksum o⟩,
  ⟨0x4, 0x7, fun _ o => .parse o⟩,
  ⟨0x5, 0x7, fun _ o => .reqReserved5 o⟩,
  ⟨0x6, 0x6, fun op o => .reqReserved67 op o⟩]

/-- Whether a request word falls under a row. -/
def ReqRow.matchesWord (r : ReqRow) (req : BitVec 4) : Bool := req &&& r.mask == r.pattern

/-- `OP[2:0]`, bits 2 to 0 of the request word (R56). -/
def opField (req : BitVec 4) : BitVec 3 := req.extractLsb' 0 3

/-- `EN`, bit 3 of the request word (R56). -/
def enField (req : BitVec 4) : Bool := req.getLsbD 3

/-- Decoding a request word with the operands beside it (R58). -/
def decodePort (req : BitVec 4) (din : Frame) (dlen : BitVec 4) : Decoded :=
  match reqRows.find? (·.matchesWord req) with
  | some r => .ok (r.make (opField req) ⟨enField req, din, dlen⟩)
  | none => .reject .noRow

/-- Decoding a command frame: the four complete frames of R49 and no other (R61). -/
def decodeCommand (f : Frame) : Decoded :=
  if f = readCo2Frame then .ok .cmdReadCo2
  else if f = calZeroFrame then .ok .cmdCalZero
  else if f = acalOnFrame then .ok .cmdAcalOn
  else if f = acalOffFrame then .ok .cmdAcalOff
  else .reject .notACommandFrame

/-- Decoding nine received bytes: RSP.CO2 where the header is right (R52); any other nine bytes are no CO2 response, and
are what PARSE is presented with (R60, R64; log 4). -/
def decodeReceived (f : Frame) : Decoded :=
  if hasResponseHeader f then .ok (.rspCo2 f) else .ok (.parse ⟨false, f, 9⟩)

/-- Decoding a transaction: by its name (R66). -/
def decodeTransaction : Transaction → Decoded
  | .readco2 => .ok .readco2
  | .calzero => .ok .calzero
  | .setacal e => .ok (.setacal e)

/-- The decoder, total on everything that can be presented. -/
def decode : Request → Decoded
  | .port req din dlen => decodePort req din dlen
  | .command f => decodeCommand f
  | .received f => decodeReceived f
  | .transaction t => decodeTransaction t

/-! ### Frames as numbers (R12) -/

/-- The frame that a 72-bit number stands for: `F[i]` is bits `71-8i : 64-8i` (R12). -/
def Frame.ofNat (w : Nat) : Frame :=
  ⟨.ofNat 8 (w / 2 ^ 64), .ofNat 8 (w / 2 ^ 56), .ofNat 8 (w / 2 ^ 48), .ofNat 8 (w / 2 ^ 40), .ofNat 8 (w / 2 ^ 32),
    .ofNat 8 (w / 2 ^ 24), .ofNat 8 (w / 2 ^ 16), .ofNat 8 (w / 2 ^ 8), .ofNat 8 w⟩

/-- A frame as one 72-bit value, `F[0]` in bits 71:64 and `F[8]` in bits 7:0 (R12). -/
def Frame.toBits (f : Frame) : BitVec 72 :=
  f.b0 ++ f.b1 ++ f.b2 ++ f.b3 ++ f.b4 ++ f.b5 ++ f.b6 ++ f.b7 ++ f.b8

/-- What a word of spec/opcode_table.json, numbered as the table numbers it, is presented as (log 13): a row of format REQ
has a four-bit word in one byte, with zero operands beside it; a row of format CMD9 or RSP9 is a 72-bit value (R12), a
command frame where it is one of the four and a received frame where it has the response header. -/
def Request.ofTableWord (nbits w : Nat) : Option Request :=
  if nbits = 4 ∨ nbits = 8 then
    if w < 16 then some (.port (.ofNat 4 w) Frame.zero 0) else none
  else if nbits = 72 ∧ w < 2 ^ 72 then
    if commandFrames.contains (Frame.ofNat w) then some (.command (Frame.ofNat w))
    else if hasResponseHeader (Frame.ofNat w) then some (.received (Frame.ofNat w))
    else none
  else none

/-- The instruction the decoder reads from a word of the opcode table; none where it refuses. -/
def decodeTableWord (nbits w : Nat) : Option Instr :=
  match Request.ofTableWord nbits w with
  | some r =>
    match decode r with
    | .ok i => some i
    | .reject _ => none
  | none => none

/-! ### The encoder -/

/-- The request word `REQ[3:0] = EN ++ OP[2:0]` (R56). -/
def reqWord (en : Bool) (op : BitVec 3) : BitVec 4 := BitVec.ofBool en ++ op

/-- A request with select code `op` (R57) and its operands (R26). -/
def portRequest (op : BitVec 3) (o : Operands) : Request := .port (reqWord o.en op) o.din o.dlen

/-- The encoded form of an instruction. -/
def encode : Instr → Request
  | .bldrd o => portRequest opBldrd o
  | .bldzero o => portRequest opBldzero o
  | .bldacal o => portRequest opBldacal o
  | .cksum o => portRequest opCksum o
  | .parse o => portRequest opParse o
  | .reqReserved5 o => portRequest opReserved5 o
  | .reqReserved67 op o => portRequest op o
  | .cmdReadCo2 => .command readCo2Frame
  | .cmdCalZero => .command calZeroFrame
  | .cmdAcalOn => .command acalOnFrame
  | .cmdAcalOff => .command acalOffFrame
  | .rspCo2 f => .received f
  | .readco2 => .transaction .readco2
  | .calzero => .transaction .calzero
  | .setacal e => .transaction (.setacal e)

/-! ### The textual syntax (R65, R66) -/

/-- The nine lanes of a buffer whose first bytes are the ones given; a lane that was not given is filled with zero (log 14:
those lanes do not matter, R36). -/
def Frame.ofBytes (l : List Byte) : Frame :=
  ⟨l.getD 0 0, l.getD 1 0, l.getD 2 0, l.getD 3 0, l.getD 4 0, l.getD 5 0, l.getD 6 0, l.getD 7 0, l.getD 8 0⟩

/-- The canonical request of a call (R65): `EN = 0` for every operation but `BLDACAL 1`; operands that are not written are
zero (log 14). -/
def Call.request : Call → Request
  | .bldrd => .port 0x0 Frame.zero 0
  | .bldzero => .port 0x1 Frame.zero 0
  | .bldacal e => .port (if e then 0xA else 0x2) Frame.zero 0
  | .cksum f => .port 0x3 f 0
  | .parse n raw => .port 0x4 (Frame.ofBytes raw) n
  | .readco2 => .transaction .readco2
  | .calzero => .transaction .calzero
  | .setacal e => .transaction (.setacal e)

end Sys2Proof
end

