-- ==== Sys2Proof/Machine/State.lean ====
section
/-! DEFINITION. The machine's state as plain data: the eight output registers (10_state.md R17 to R24), what the requester has yet to present (43_transactions.md R104), the transport beside the FC (R97) and the latest result handed to the caller (R98). -/

namespace Sys2Proof.Machine

/-- The frame-level errors, collectively ProtocolError, each with the detail the source attaches (60_exceptions.md R109 to R112):
the actual count, to be read against the expected `frameLen`; the raw frame; nothing. -/
inductive FrameError where
  | length (actual : BitVec 4)
  | header (raw : Frame)
  | checksum
  deriving DecidableEq, Repr

/-- The five error kinds of the taxonomy (R109). The FC raises the frame-level ones only. -/
inductive ErrorKind where
  | connectionError
  | ioError
  | protocol (e : FrameError)
  deriving DecidableEq, Repr

/-- What a transaction or a transport call returns to its caller (R98 step 5, R99, R100, R97). -/
inductive CallResult where
  /-- READCO2 returned a concentration in parts per million -/
  | reading (ppm : BitVec 16)
  /-- CALZERO, SETACAL, `open` or `close` succeeded -/
  | success
  | error (k : ErrorKind)
  deriving DecidableEq, Repr

/-- The requester's handle on the transport (R97, R106). -/
inductive Session where
  /-- no handle: before `open`, or after `close` -/
  | closed
  | opened
  /-- `open` failed with ConnectionError: fatal to the session (R113) -/
  | openFailed
  /-- `close` failed with IOError: the spec says nothing of the handle from here on (log 9) -/
  | closeFailed
  deriving DecidableEq, Repr

/-- The transport, as far as the transactions reach it (R97): the handle, the bytes handed to `write`, oldest first, and its
answers: canned ones first, in order, then free values numbered by `draws` (R103; log 6). -/
structure Transport where
  session : Session
  handed  : List Byte
  opens   : List OpenAnswer
  writes  : List WriteAnswer
  reads   : List ReadAnswer
  closes  : List CloseAnswer
  draws   : Nat
  deriving DecidableEq, Repr

/-- REQUESTS, a finite or an infinite sequence (R104): the events that are written out, the next one first, and, where the
sequence is infinite, the number of the free event that comes after them (logs 1, 17). -/
structure Agenda where
  listed  : List Event
  /-- none: the sequence ends with the list; some k: it goes on with `Config.freeEvent k`, `Config.freeEvent (k + 1)`, … -/
  endless : Option Nat
  deriving DecidableEq, Repr

/-- The state. The first eight fields are the registers of the FC. -/
structure State where
  /-- `TXF[0..8]`, the transmit frame register (R17) -/
  txf : Frame
  /-- `TXV`, transmit frame valid (R18) -/
  txv : Bool
  /-- `CK`, the computed checksum (R19) -/
  ck : Byte
  /-- `CKOK`, the checksum validator's verdict (R20) -/
  ckok : Bool
  /-- `ST[2:0]`, the parse status (R21) -/
  st : BitVec 3
  /-- `PPM[15:0]`, the reading (R22) -/
  ppm : BitVec 16
  /-- `ELEN[3:0]`, the count of the last PARSE (R23) -/
  elen : BitVec 4
  /-- `ERAW[0..8]`, the raw frame of the last PARSE (R24) -/
  eraw : Frame
  /-- what the outside will do (R104; logs 1, 17) -/
  agenda : Agenda
  /-- the transport beside the FC (R97) -/
  transport : Transport
  /-- what the latest transaction or transport call returned (log 11) -/
  result : Option CallResult
  deriving DecidableEq, Repr

/-- The sequence with nothing in it. -/
def Agenda.empty : Agenda := ⟨[], none⟩

/-- The transport right after reset: opened by the requester (log 8), nothing handed over, no answer canned (logs 6, 10). -/
def Transport.initial : Transport := ⟨.opened, [], [], [], [], [], 0⟩

/-- The machine right after reset: every register at the value of 10_state.md R32; nothing presented yet (logs 1, 8, 10, 11). -/
def State.reset : State where
  txf := Frame.zero
  txv := false
  ck := 0
  ckok := false
  st := 0
  ppm := 0
  elen := 0
  eraw := Frame.zero
  agenda := Agenda.empty
  transport := Transport.initial
  result := none

/-- Why the machine stops with a fault. The FC itself never faults (R104, R119): frame-level errors are values of `ST`. -/
inductive Fault where
  /-- Raised by READCO2, CALZERO and SETACAL where `write` returned a count below 9 without an IOError: no rule covers what
  follows, so the transaction is stuck (93_implementation_defined.md U10; log 7). Safe: nothing can be proved past it. -/
  | partialWrite
  deriving DecidableEq, Repr

/-- Why a step is refused: there is no step. -/
inductive Refusal where
  /-- Raised by the dispatch for an instruction that has no meaning in this model. Safe. -/
  | notModelled (mnemonic : String)
  /-- Raised by REQ.RESERVED_5 and REQ.RESERVED_6_7: a reserved `OP` selects no operation (30_encoding.md R62). Safe. -/
  | reservedRequest
  /-- Raised by the step where what is presented decodes to no instruction (R61). Safe. -/
  | rejected (r : Reject)
  /-- Raised by the step where nothing is presented: there is one step per request (R15, R140; log 12). Safe. -/
  | nothingPresented
  /-- Raised by READCO2, CALZERO and SETACAL without an open transport: no transaction can then run (R106, R129; log 8). Safe. -/
  | transportNotOpen
  /-- Raised by `open` on a transport that is not closed and by `close` on one that is not open: outside the order of R106 (log 9). Safe. -/
  | sessionOrder
  deriving DecidableEq, Repr

/-- The outcome of a meaning. -/
abbrev Outcome := Host.Outcome State Fault Refusal

end Sys2Proof.Machine
end

