-- ==== Sys2Proof/Machine/Ops.lean ====
section
/-! DEFINITION. The named operations over frames, registers and the transport; raising a frame-level error as one shared operation. -/

namespace Sys2Proof.Machine

/-! ### Frames (20_memory.md) -/

/-- `FrameRead(F, i)`: defined for `0 <= i <= 8` (R13, R36). -/
def frameRead (f : Frame) : Nat → Option Byte
  | 0 => some f.b0
  | 1 => some f.b1
  | 2 => some f.b2
  | 3 => some f.b3
  | 4 => some f.b4
  | 5 => some f.b5
  | 6 => some f.b6
  | 7 => some f.b7
  | 8 => some f.b8
  | _ => none

/-- `FrameWrite(F, i, v)`: defined for `0 <= i <= 8`; sets `F[i]` and leaves the other eight bytes (R13, R35). -/
def frameWrite (f : Frame) (i : Nat) (v : Byte) : Option Frame :=
  match i with
  | 0 => some { f with b0 := v }
  | 1 => some { f with b1 := v }
  | 2 => some { f with b2 := v }
  | 3 => some { f with b3 := v }
  | 4 => some { f with b4 := v }
  | 5 => some { f with b5 := v }
  | 6 => some { f with b6 := v }
  | 7 => some { f with b7 := v }
  | 8 => some { f with b8 := v }
  | _ => none

/-- The bytes of a frame in index order, the order of the link (R38). -/
def frameBytes (f : Frame) : List Byte := [f.b0, f.b1, f.b2, f.b3, f.b4, f.b5, f.b6, f.b7, f.b8]

/-! ### Registers, by write group (10_state.md R25) -/

/-- Writing the BUILD group: the frame, all nine bytes together, and `TXV` set (R17, R18). -/
def State.writeBuild (s : State) (f : Frame) : State := { s with txf := f, txv := true }

/-- Writing the CHECK group (R19, R20). -/
def State.writeCheck (s : State) (ck : Byte) (ok : Bool) : State := { s with ck := ck, ckok := ok }

/-- Writing the PARSE group, all four registers (R21 to R24). -/
def State.writeParse (s : State) (st : BitVec 3) (ppm : BitVec 16) (elen : BitVec 4) (eraw : Frame) : State :=
  { s with st := st, ppm := ppm, elen := elen, eraw := eraw }

/-- Reset of the FC: every register at its value of R32, everything outside the FC as it was (R127). -/
def State.resetRegisters (s : State) : State :=
  { State.reset with agenda := s.agenda, transport := s.transport, result := s.result }

/-! ### Raising an error (60_exceptions.md) -/

/-- The code of a frame-level error in `ST` (R109). -/
def FrameError.code : FrameError → BitVec 3
  | .length _ => stLen
  | .header _ => stHdr
  | .checksum => stCks

/-- `raise E(detail)` (R115): `ST` takes the code of `E`, the detail registers take the count and the raw frame, `PPM`
takes the filler 0, and the step completes. Nothing is saved and no control is transferred (R119); there is no return (R120). -/
def raise (e : FrameError) (count : BitVec 4) (raw : Frame) (s : State) : State := s.writeParse e.code 0 count raw

/-- The error `ST` names, with its detail from `ELEN` or `ERAW`; none for `ST_NONE` and `ST_OK` (R93, R98 step 5, R109). -/
def errorNamed (s : State) : Option FrameError :=
  if s.st = stLen then some (.length s.elen)
  else if s.st = stHdr then some (.header s.eraw)
  else if s.st = stCks then some .checksum
  else none

/-! ### The agenda and the result -/

/-- The next event of a sequence and the sequence after it; none where the sequence has ended (R104, R140; log 17). -/
def Agenda.next (a : Agenda) : Option (Event × Agenda) :=
  match a.listed, a.endless with
  | e :: rest, more => some (e, ⟨rest, more⟩)
  | [], some k => some (Config.freeEvent k, ⟨[], some (k + 1)⟩)
  | [], none => none

/-- Replacing the events that are still to come. -/
def State.withAgenda (s : State) (a : Agenda) : State := { s with agenda := a }

/-- Presenting a request next. -/
def State.present (s : State) (r : Request) : State :=
  s.withAgenda { s.agenda with listed := .request r :: s.agenda.listed }

/-- Returning to the caller. -/
def State.withResult (s : State) (r : CallResult) : State := { s with result := some r }

/-- Replacing the transport. -/
def State.withTransport (s : State) (t : Transport) : State := { s with transport := t }

/-! ### The transport's calls (43_transactions.md R97, R103) -/

/-- The counter after one call: a canned answer leaves it, a free one advances it (log 6). -/
def drawsAfter {α : Type} (canned : List α) (k : Nat) : Nat := if canned.isEmpty then k + 1 else k

/-- What the next `open` answers. -/
def Transport.openAnswer (t : Transport) : OpenAnswer := t.opens.headD (Config.freeOpen t.draws)

/-- What the next `write` answers. -/
def Transport.writeAnswer (t : Transport) : WriteAnswer := t.writes.headD (Config.freeWrite t.draws)

/-- What the next `read` answers. -/
def Transport.readAnswer (t : Transport) : ReadAnswer := t.reads.headD (Config.freeRead t.draws)

/-- What the next `close` answers. -/
def Transport.closeAnswer (t : Transport) : CloseAnswer := t.closes.headD (Config.freeClose t.draws)

/-- The transport after an `open` that leaves the session as given. -/
def Transport.afterOpen (t : Transport) (v : Session) : Transport :=
  { t with session := v, opens := t.opens.tail, draws := drawsAfter t.opens t.draws }

/-- The transport after a `write` of the bytes given, whatever it answered (log 10). -/
def Transport.afterWrite (t : Transport) (bytes : List Byte) : Transport :=
  { t with handed := t.handed ++ bytes, writes := t.writes.tail, draws := drawsAfter t.writes t.draws }

/-- The transport after a `read`. -/
def Transport.afterRead (t : Transport) : Transport :=
  { t with reads := t.reads.tail, draws := drawsAfter t.reads t.draws }

/-- The transport after a `close` that leaves the session as given. -/
def Transport.afterClose (t : Transport) (v : Session) : Transport :=
  { t with session := v, closes := t.closes.tail, draws := drawsAfter t.closes t.draws }

/-- Handing `TXF` to `write`, `TXF[0]` first (R38, R98 step 2). -/
def State.handOver (s : State) : State := s.withTransport (s.transport.afterWrite (frameBytes s.txf))

/-- A `read` into the requester's buffer (R98 step 3): the FC is untouched. -/
def State.collect (s : State) : State := s.withTransport s.transport.afterRead

end Sys2Proof.Machine
end

