-- ==== Sys2Proof/Machine/Operands.lean ====
section
/-! DEFINITION. Operand assembly: the one value encoded into a frame and the one decoded from a frame (30_encoding.md R54, R55), and what PARSE may read of `DIN` (20_memory.md R36). -/

namespace Sys2Proof.Machine

/-- `P0` of the set-auto-calibration command: `0xA0` if `EN = 1`, else `0x00` (R55, R50). -/
def acalPayload (en : Bool) : Byte := if en then acalOnByte else 0x00

/-- The CO2 reading of a frame: `F[2] * 256 + F[3]`, unsigned, 16 bits, big-endian (R37, R54). -/
def ppmOf (f : Frame) : BitVec 16 := .ofNat 16 (f.b2.toNat * 256 + f.b3.toNat)

/-- The count a `read` returned, as the operand `DLEN` (R97, R98 step 4). -/
def dlenOf (n : Fin 10) : BitVec 4 := .ofNat 4 n.val

/-- A byte of the PARSE operand: `FrameRead` restricted to the bytes that were received, `i < min(DLEN, 9)` (R36). -/
def receivedRead (din : Frame) (dlen : BitVec 4) (i : Nat) : Option Byte :=
  if i < min dlen.toNat frameLen then frameRead din i else none

end Sys2Proof.Machine
end

