-- ==== Sys2Proof/Machine/Flags.lean ====
section
/-! DEFINITION. The checksum and the verdicts: what `CK`, `CKOK` and `ST` are computed from (40_checksum.md R67, R70; 42_decode.md R86 to R90). -/

namespace Sys2Proof.Machine

/-- The true sum of bytes 1 to 7, 0 to 1785 (R67). -/
def byteSum (f : Frame) : Nat :=
  f.b1.toNat + f.b2.toNat + f.b3.toNat + f.b4.toNat + f.b5.toNat + f.b6.toNat + f.b7.toNat

/-- `S`: the sum of bytes 1 to 7 modulo 256 (R67). -/
def sumMod (f : Frame) : Nat := byteSum f % 256

/-- `cksum(F) = (0xFF - S + 1) mod 256` (R67). -/
def cksum (f : Frame) : Byte := .ofNat 8 (0xFF - sumMod f + 1)

/-- `ck_valid(F)`: byte 8 equals the checksum (R70); the value of `CKOK` (R72). -/
def ckValid (f : Frame) : Bool := f.b8 == cksum f

/-- Check 1 of PARSE passes: exactly nine bytes were read (R86). -/
def lengthOk (dlen : BitVec 4) : Bool := dlen.toNat == frameLen

/-- Check 2 of PARSE passes: byte 0 is `0xFF` and byte 1 is `0x86` (R87). -/
def headerOk (f : Frame) : Bool := f.b0 == startByte && f.b1 == opcReadCo2

end Sys2Proof.Machine
end

