-- ==== Sys2Proof/Machine/Checksum.lean ====
section
/-! DEFINITION. The checksum family: CKSUM (40_checksum.md R72). -/

namespace Sys2Proof.Machine

/-- CKSUM (R72): `CK <- cksum(DIN)`, `CKOK <- ck_valid(DIN)`; no failure mode. -/
def execCksum (o : Operands) (s : State) : Outcome := .next (s.writeCheck (cksum o.din) (ckValid o.din))

end Sys2Proof.Machine
end

