-- ==== Sys2Proof/Machine/Reserved.lean ====
section
/-! DEFINITION. The reserved request codes (30_encoding.md R62): refused, no step, no register written. -/

namespace Sys2Proof.Machine

/-- REQ.RESERVED_5 (R62). -/
def execReqReserved5 (_ : Operands) (_ : State) : Outcome := .refused .reservedRequest

/-- REQ.RESERVED_6_7 (R62). -/
def execReqReserved67 (_ : BitVec 3) (_ : Operands) (_ : State) : Outcome := .refused .reservedRequest

end Sys2Proof.Machine
end

