-- ==== Sys2Proof/Machine/Decoder.lean ====
section
/-! DEFINITION. The frame decoder: PARSE (42_decode.md R94) and the response frame it decodes (30_encoding.md R52). -/

namespace Sys2Proof.Machine

/-- The whole step of PARSE (R94): length, then header, then checksum; the first check that fails decides (R90). `DIN` is
touched only where nine bytes were received (R92). -/
def parseInto (dlen : BitVec 4) (din : Frame) (s : State) : State :=
  if lengthOk dlen then
    if headerOk din then
      if ckValid din then s.writeParse stOk (ppmOf din) dlen din
      else raise .checksum dlen din s
    else raise (.header din) dlen din s
  else raise (.length dlen) dlen Frame.zero s

/-- PARSE (R94). -/
def execParse (o : Operands) (s : State) : Outcome := .next (parseInto o.dlen o.din s)

/-- RSP.CO2 (R52, decoded by PARSE; log 4): the nine bytes of the frame, parsed as received. -/
def execRspCo2 (f : Frame) (s : State) : Outcome := .next (parseInto 9 f s)

end Sys2Proof.Machine
end

