-- ==== Sys2Proof/Machine/Encoder.lean ====
section
/-! DEFINITION. The build family (41_encode.md) and the complete command frames it builds (30_encoding.md R49). -/

namespace Sys2Proof.Machine

/-- `build(opc, p0)` before its checksum: the header, the opcode, the payload byte and zeros (R77). -/
def commandBody (opc p0 : Byte) : Frame := ⟨startByte, addrByte, opc, p0, 0x00, 0x00, 0x00, 0x00, 0x00⟩

/-- `build(opc, p0)` (R77): the body with its checksum at index 8. -/
def build (opc p0 : Byte) : Frame := { commandBody opc p0 with b8 := cksum (commandBody opc p0) }

/-- What every build operation does: `TXF <- build(opc, p0)`, `TXV <- 1` (R77 to R80). -/
def buildInto (opc p0 : Byte) (s : State) : State := s.writeBuild (build opc p0)

/-- BLDRD (R78). -/
def execBldrd (_ : Operands) (s : State) : Outcome := .next (buildInto opcReadCo2 0x00 s)

/-- BLDZERO (R79). -/
def execBldzero (_ : Operands) (s : State) : Outcome := .next (buildInto opcCalZero 0x00 s)

/-- BLDACAL (R80): the one operand is `EN`. -/
def execBldacal (o : Operands) (s : State) : Outcome := .next (buildInto opcAcal (acalPayload o.en) s)

/-- CMD.READ_CO2 (R49, built by BLDRD; log 3): the complete frame of the row stands in `TXF`. -/
def execCmdReadCo2 (s : State) : Outcome := .next (s.writeBuild readCo2Frame)

/-- CMD.CAL_ZERO (R49, built by BLDZERO; log 3). -/
def execCmdCalZero (s : State) : Outcome := .next (s.writeBuild calZeroFrame)

/-- CMD.ACAL_ON (R49, built by BLDACAL with `EN = 1`; log 3). -/
def execCmdAcalOn (s : State) : Outcome := .next (s.writeBuild acalOnFrame)

/-- CMD.ACAL_OFF (R49, built by BLDACAL with `EN = 0`; log 3). -/
def execCmdAcalOff (s : State) : Outcome := .next (s.writeBuild acalOffFrame)

end Sys2Proof.Machine
end

