-- ==== Sys2Proof/Machine/Transactions.lean ====
section
/-! DEFINITION. The requester-side transactions READCO2, CALZERO and SETACAL (43_transactions.md R98 to R100), and the requester's other actions: reset, open, close (R106, R127). -/

namespace Sys2Proof.Machine

/-- A transaction runs only on an open transport (R106, R129; log 8). -/
def inSession (s : State) (body : Outcome) : Outcome :=
  if s.transport.session = .opened then body else .refused .transportNotOpen

/-- Step 2 of every transaction: `write(handle, TXF)`. On IOError the transaction ends with IOError; on a partial write it is
stuck (U10; log 7); otherwise it goes on (R98 to R100). -/
def transmit (s : State) (sent : State → Outcome) : Outcome :=
  match s.transport.writeAnswer with
  | .ioError => .next (s.handOver.withResult (.error .ioError))
  | .count n => if n.val = frameLen then sent s.handOver else .fault .partialWrite

/-- Step 5 of READCO2: `PPM` if `ST = ST_OK`, else the error named by `ST` (R98). -/
def parseResult (s : State) : CallResult :=
  match errorNamed s with
  | some e => .error (.protocol e)
  | none => .reading s.ppm

/-- Steps 3 to 5 of READCO2: `read`; on IOError the transaction ends, no PARSE is issued and `ST` keeps its value (R102);
otherwise PARSE what was read, and return (R98). -/
def receive (s : State) : Outcome :=
  match s.transport.readAnswer with
  | .ioError => .next (s.collect.withResult (.error .ioError))
  | .count n buf =>
    let t := parseInto (dlenOf n) buf s.collect
    .next (t.withResult (parseResult t))

/-- READCO2 (R98). -/
def execReadco2 (s : State) : Outcome :=
  inSession s (transmit (buildInto opcReadCo2 0x00 s) receive)

/-- CALZERO (R99): no read and no PARSE follow (R101). -/
def execCalzero (s : State) : Outcome :=
  inSession s (transmit (buildInto opcCalZero 0x00 s) fun t => .next (t.withResult .success))

/-- SETACAL e (R100): no read and no PARSE follow (R101). -/
def execSetacal (e : Bool) (s : State) : Outcome :=
  inSession s (transmit (buildInto opcAcal (acalPayload e) s) fun t => .next (t.withResult .success))

/-! ### The requester's other actions -/

/-- Reset of the FC (R127). -/
def runReset (s : State) : Outcome := .next s.resetRegisters

/-- `open` (R97): a handle, or ConnectionError, which is fatal to the session (R113). Once per session (R106). -/
def runOpen (s : State) : Outcome :=
  if s.transport.session = .closed then
    match s.transport.openAnswer with
    | .handle => .next ((s.withTransport (s.transport.afterOpen .opened)).withResult .success)
    | .connectionError =>
      .next ((s.withTransport (s.transport.afterOpen .openFailed)).withResult (.error .connectionError))
  else .refused .sessionOrder

/-- `close` (R97): nothing, or IOError, after which the spec says nothing of the handle (log 9). Once per session (R106). -/
def runClose (s : State) : Outcome :=
  if s.transport.session = .opened then
    match s.transport.closeAnswer with
    | .closed => .next ((s.withTransport (s.transport.afterClose .closed)).withResult .success)
    | .ioError => .next ((s.withTransport (s.transport.afterClose .closeFailed)).withResult (.error .ioError))
  else .refused .sessionOrder

end Sys2Proof.Machine
end

