-- ==== Sys2Proof/Machine/Dispatch.lean ====
section
/-! DEFINITION. The dispatch: one arm per row of spec/opcode_table.json, each one direct call of its meaning. -/

namespace Sys2Proof.Machine

def exec (i : Instr) (s : State) : Host.Outcome State Fault Refusal :=
  match i with
  | .bldrd o => Sys2Proof.Machine.execBldrd o s
  | .bldzero o => Sys2Proof.Machine.execBldzero o s
  | .bldacal o => Sys2Proof.Machine.execBldacal o s
  | .cksum o => Sys2Proof.Machine.execCksum o s
  | .parse o => Sys2Proof.Machine.execParse o s
  | .reqReserved5 o => Sys2Proof.Machine.execReqReserved5 o s
  | .reqReserved67 op o => Sys2Proof.Machine.execReqReserved67 op o s
  | .cmdReadCo2 => Sys2Proof.Machine.execCmdReadCo2 s
  | .cmdCalZero => Sys2Proof.Machine.execCmdCalZero s
  | .cmdAcalOn => Sys2Proof.Machine.execCmdAcalOn s
  | .cmdAcalOff => Sys2Proof.Machine.execCmdAcalOff s
  | .rspCo2 f => Sys2Proof.Machine.execRspCo2 f s
  | .readco2 => Sys2Proof.Machine.execReadco2 s
  | .calzero => Sys2Proof.Machine.execCalzero s
  | .setacal e => Sys2Proof.Machine.execSetacal e s

end Sys2Proof.Machine
end

