-- ==== Sys2Proof/Machine/Run.lean ====
section
/-! DEFINITION. Running one event, and a run over a whole sequence of events, finite or infinite (43_transactions.md R104; 70_reset_and_hazards.md R140). -/

namespace Sys2Proof.Machine

/-- Decoding and executing what was presented. -/
def runRequest (r : Request) (s : State) : Outcome :=
  match decode r with
  | .ok i => exec i s
  | .reject e => .refused (.rejected e)

/-- Running one event, completely (10_state.md R15; 20_memory.md R42). -/
def runEvent (e : Event) (s : State) : Outcome :=
  match e with
  | .request r => runRequest r s
  | .reset => runReset s
  | .openTransport => runOpen s
  | .closeTransport => runClose s

/-! ### Sequences: the events `q 0`, `q 1`, … and how many there are, none for an infinite sequence -/

/-- The event at position `n`; none past the end of a finite sequence. -/
def eventAt (q : Nat → Event) (len : Option Nat) (n : Nat) : Option Event :=
  match len with
  | none => some (q n)
  | some k => if n < k then some (q n) else none

/-- The run of a sequence from a state, after its first `n` events (R104): one step per event. It ends with the sequence, in the
state after the last step, and a step that is refused or stuck has no continuation. -/
def runOver (q : Nat → Event) (len : Option Nat) (s : State) : Nat → Outcome
  | 0 => .next s
  | n + 1 =>
    match runOver q len s n with
    | .next t =>
      match eventAt q len n with
      | some e => runEvent e t
      | none => .next t
    | .fault f => .fault f
    | .refused r => .refused r

/-- The sequence an agenda stands for: how long it is. -/
def Agenda.length (a : Agenda) : Option Nat :=
  match a.endless with
  | none => some a.listed.length
  | some _ => none

/-- The sequence an agenda stands for: its events, the listed ones and then the free ones. -/
def Agenda.event (a : Agenda) (n : Nat) : Event :=
  a.listed[n]?.getD (Config.freeEvent (a.endless.getD 0 + (n - a.listed.length)))

/-- What is left of an agenda after its first `n` events. -/
def Agenda.drop (a : Agenda) (n : Nat) : Agenda :=
  ⟨a.listed.drop n, a.endless.map (· + (n - a.listed.length))⟩

end Sys2Proof.Machine
end

