-- ==== Sys2Proof/Machine/Step.lean ====
section
/-! DEFINITION. One step: the next event of the agenda, completely (10_state.md R15; 20_memory.md R42). -/

namespace Sys2Proof.Machine

/-- The step. There is one step per request (R15); where nothing is presented there is none (R140; log 12). -/
def step (s : State) : Host.Outcome State Fault Refusal :=
  match s.agenda.next with
  | none => .refused .nothingPresented
  | some (e, rest) => runEvent e (s.withAgenda rest)

/-- The state with a word of the opcode table presented next (log 13), so that the next step runs exactly it. Where the
table has no such word, nothing is presented. -/
def State.withFetchWord (s : State) (nbits w : Nat) : State :=
  match Request.ofTableWord nbits w with
  | some r => s.present r
  | none => s.withAgenda Agenda.empty

end Sys2Proof.Machine
end

