-- ==== Sys2Proof/Safety.lean ====
section
/-! DEFINITION. The terms claims are stated in: what stays unchanged, what a requester may trust, and the invariants of the registers. -/

namespace Sys2Proof.Machine

/-! ### Frames: what an instruction leaves unchanged, by write group (10_state.md R25) -/

/-- The BUILD group is the same in both states. -/
def SameBuild (s t : State) : Prop := t.txf = s.txf ∧ t.txv = s.txv

/-- The CHECK group is the same in both states. -/
def SameCheck (s t : State) : Prop := t.ck = s.ck ∧ t.ckok = s.ckok

/-- The PARSE group is the same in both states. -/
def SameParse (s t : State) : Prop := t.st = s.st ∧ t.ppm = s.ppm ∧ t.elen = s.elen ∧ t.eraw = s.eraw

/-- Everything outside the FC is the same in both states. -/
def SameOutside (s t : State) : Prop := t.agenda = s.agenda ∧ t.transport = s.transport ∧ t.result = s.result

/-- The eight registers of the FC are the same in both states. -/
def SameRegisters (s t : State) : Prop := SameBuild s t ∧ SameCheck s t ∧ SameParse s t

/-! ### What a requester may trust (70_reset_and_hazards.md R133) -/

/-- `PPM` is a reading only while `ST = ST_OK`. -/
def State.reading (s : State) : Option (BitVec 16) := if s.st = stOk then some s.ppm else none

/-- `TXF` is a command frame only while `TXV = 1`. -/
def State.commandFrame (s : State) : Option Frame := if s.txv then some s.txf else none

/-! ### Write groups (R25) -/

/-- The three write groups of the registers. -/
inductive Group where
  | build
  | check
  | parse
  deriving DecidableEq, Repr

/-- The write group of an operation of the FC, and of the rows of its frames (logs 3, 4); none for the reserved request
codes, which write nothing (R62), and for the transactions, which are not operations of the FC (R66). -/
def groupOf : Instr → Option Group
  | .bldrd _ => some .build
  | .bldzero _ => some .build
  | .bldacal _ => some .build
  | .cksum _ => some .check
  | .parse _ => some .parse
  | .reqReserved5 _ => none
  | .reqReserved67 _ _ => none
  | .cmdReadCo2 => some .build
  | .cmdCalZero => some .build
  | .cmdAcalOn => some .build
  | .cmdAcalOff => some .build
  | .rspCo2 _ => some .parse
  | .readco2 => none
  | .calzero => none
  | .setacal _ => none

/-- The registers of a group are the same in both states. -/
def Group.Same (g : Group) (s t : State) : Prop :=
  match g with
  | .build => SameBuild s t
  | .check => SameCheck s t
  | .parse => SameParse s t

/-! ### Runs (43_transactions.md R104) -/

/-- One of the ten admitted request words (30_encoding.md R58), with any operands. -/
def Admitted (e : Event) : Prop :=
  ∃ (w : BitVec 4) (din : Frame) (dlen : BitVec 4), e = .request (.port w din dlen) ∧ (w &&& 0x7).toNat ≤ 4

/-- `n` steps of the machine; a step that is refused or stuck has no continuation. -/
def steps (s : State) : Nat → Outcome
  | 0 => .next s
  | n + 1 =>
    match steps s n with
    | .next t => step t
    | .fault f => .fault f
    | .refused r => .refused r

/-- An outcome with its next state replaced. -/
def onNext (g : State → State) : Outcome → Outcome
  | .next t => .next (g t)
  | .fault f => .fault f
  | .refused r => .refused r

/-! ### Invariants -/

/-- A well-formed RSP9, as a 72-bit value (30_encoding.md R52): the match/mask pair, and byte 8 equal to the checksum. -/
def isRsp9 (v : BitVec 72) : Bool :=
  v &&& 0xFFFF00000000000000 == 0xFF8600000000000000 && v.extractLsb' 0 8 == cksum (Frame.ofNat v.toNat)

/-- What the registers say of each other in every state that a run from reset reaches.
* `txf_unbuilt`, `txf_built`: `TXV` tells a command frame from the reset value (R18, R49).
* `st_none` … `st_ok`: what each value of `ST` says of `PPM`, `ELEN` and `ERAW` (R21 to R24, R94).
* `st_range`: the values 5, 6 and 7 are never produced (R21). -/
structure State.Inv (s : State) : Prop where
  txf_unbuilt : s.txv = false → s.txf = Frame.zero
  txf_built   : s.txv = true → s.txf ∈ commandFrames
  st_range    : s.st.toNat ≤ 4
  st_none     : s.st = stNone → s.ppm = 0 ∧ s.elen = 0 ∧ s.eraw = Frame.zero
  st_len      : s.st = stLen → s.ppm = 0 ∧ s.elen ≠ 9 ∧ s.eraw = Frame.zero
  st_hdr      : s.st = stHdr → s.ppm = 0 ∧ s.elen = 9 ∧ (s.eraw.b0 ≠ 0xFF ∨ s.eraw.b1 ≠ 0x86)
  st_cks      : s.st = stCks → s.ppm = 0 ∧ s.elen = 9 ∧ s.eraw.b0 = 0xFF ∧ s.eraw.b1 = 0x86 ∧ s.eraw.b8 ≠ cksum s.eraw
  st_ok       : s.st = stOk →
    s.elen = 9 ∧ s.eraw.b0 = 0xFF ∧ s.eraw.b1 = 0x86 ∧ s.eraw.b8 = cksum s.eraw ∧
      s.ppm.toNat = s.eraw.b2.toNat * 256 + s.eraw.b3.toNat

/-- Everything handed to the transport is a sequence of whole command frames (R61, R83, R98 to R100). -/
def OnlyCommandsHanded (s : State) : Prop :=
  ∃ fs : List Frame, (∀ f ∈ fs, f ∈ commandFrames) ∧ s.transport.handed = fs.flatMap frameBytes

end Sys2Proof.Machine
end

