-- ==== Sys2Proof/Certificates/Slice0/Obligations.lean ====
section
/-! DEFINITION. The statements for the provers, one `def Obligations.<Name> : Prop` each. -/

open Sys2Proof Sys2Proof.Machine

/-! ### The encoder: BLDRD, BLDZERO, BLDACAL and the command frames -/

/-- 41_encode.md R78: `OP = 0b000` selects BLDRD whatever the other operands are, and it leaves `build(0x86, 0x00)`, the frame
`FF 01 86 00 00 00 00 00 79`, in `TXF` and 1 in `TXV`, writes no other register and has no failure mode. -/
def Obligations.BldrdBuildsTheReadCo2Command : Prop :=
  ∀ (en : Bool) (din : Frame) (dlen : BitVec 4) (s : State),
    decode (.port (BitVec.ofBool en ++ (0b000 : BitVec 3)) din dlen) = .ok (.bldrd ⟨en, din, dlen⟩) ∧
    ∃ t, exec (.bldrd ⟨en, din, dlen⟩) s = .next t ∧
      t.txf = ⟨0xFF, 0x01, 0x86, 0, 0, 0, 0, 0, 0x79⟩ ∧ t.txf = build 0x86 0x00 ∧ t.txv = true ∧
      SameCheck s t ∧ SameParse s t ∧ SameOutside s t

/-- 41_encode.md R79: `OP = 0b001` selects BLDZERO whatever the other operands are, and it leaves `build(0x87, 0x00)`, the frame
`FF 01 87 00 00 00 00 00 78`, in `TXF` and 1 in `TXV`, writes no other register and has no failure mode. -/
def Obligations.BldzeroBuildsTheCalibrateZeroCommand : Prop :=
  ∀ (en : Bool) (din : Frame) (dlen : BitVec 4) (s : State),
    decode (.port (BitVec.ofBool en ++ (0b001 : BitVec 3)) din dlen) = .ok (.bldzero ⟨en, din, dlen⟩) ∧
    ∃ t, exec (.bldzero ⟨en, din, dlen⟩) s = .next t ∧
      t.txf = ⟨0xFF, 0x01, 0x87, 0, 0, 0, 0, 0, 0x78⟩ ∧ t.txf = build 0x87 0x00 ∧ t.txv = true ∧
      SameCheck s t ∧ SameParse s t ∧ SameOutside s t

/-- 41_encode.md R80: `OP = 0b010` selects BLDACAL, which builds `FF 01 79 A0 00 00 00 00 E6` for `EN = 1` and
`FF 01 79 00 00 00 00 00 86` for `EN = 0` into `TXF`, leaves 1 in `TXV`, writes no other register and has no failure mode. -/
def Obligations.BldacalBuildsTheAutoCalibrationCommand : Prop :=
  ∀ (en : Bool) (din : Frame) (dlen : BitVec 4) (s : State),
    decode (.port (BitVec.ofBool en ++ (0b010 : BitVec 3)) din dlen) = .ok (.bldacal ⟨en, din, dlen⟩) ∧
    ∃ t, exec (.bldacal ⟨en, din, dlen⟩) s = .next t ∧
      t.txf = (if en then ⟨0xFF, 0x01, 0x79, 0xA0, 0, 0, 0, 0, 0xE6⟩ else ⟨0xFF, 0x01, 0x79, 0, 0, 0, 0, 0, 0x86⟩) ∧
      t.txf = (if en then build 0x79 0xA0 else build 0x79 0x00) ∧ t.txv = true ∧
      SameCheck s t ∧ SameParse s t ∧ SameOutside s t

/-- The rows CMD.READ_CO2, CMD.CAL_ZERO, CMD.ACAL_ON, CMD.ACAL_OFF: that executing the row of a command frame is building that
frame is the model's choice (log 3); the frames are those of 30_encoding.md R49. -/
def Obligations.CommandFrameRowsAreBuilt : Prop :=
  ∀ (o : Operands) (s : State),
    (∃ t, exec .cmdReadCo2 s = .next t ∧ t.txf = ⟨0xFF, 0x01, 0x86, 0, 0, 0, 0, 0, 0x79⟩ ∧ t.txv = true ∧
      SameCheck s t ∧ SameParse s t ∧ SameOutside s t ∧ exec (.bldrd o) s = .next t) ∧
    (∃ t, exec .cmdCalZero s = .next t ∧ t.txf = ⟨0xFF, 0x01, 0x87, 0, 0, 0, 0, 0, 0x78⟩ ∧ t.txv = true ∧
      SameCheck s t ∧ SameParse s t ∧ SameOutside s t ∧ exec (.bldzero o) s = .next t) ∧
    (∃ t, exec .cmdAcalOn s = .next t ∧ t.txf = ⟨0xFF, 0x01, 0x79, 0xA0, 0, 0, 0, 0, 0xE6⟩ ∧ t.txv = true ∧
      SameCheck s t ∧ SameParse s t ∧ SameOutside s t ∧ exec (.bldacal { o with en := true }) s = .next t) ∧
    (∃ t, exec .cmdAcalOff s = .next t ∧ t.txf = ⟨0xFF, 0x01, 0x79, 0, 0, 0, 0, 0, 0x86⟩ ∧ t.txv = true ∧
      SameCheck s t ∧ SameParse s t ∧ SameOutside s t ∧ exec (.bldacal { o with en := false }) s = .next t)

/-- R77: for any two bytes, `build` gives the header, the opcode, the payload byte, zeros, and the checksum of the three
bytes that are summed; every build operation leaves such a frame in `TXF` and 1 in `TXV`, and it always validates. -/
def Obligations.EveryBuiltFrameValidates : Prop :=
  (∀ (opc p0 : Byte),
    (build opc p0).b0 = 0xFF ∧ (build opc p0).b1 = 0x01 ∧ (build opc p0).b2 = opc ∧ (build opc p0).b3 = p0 ∧
    (build opc p0).b4 = 0 ∧ (build opc p0).b5 = 0 ∧ (build opc p0).b6 = 0 ∧ (build opc p0).b7 = 0 ∧
    (build opc p0).b8 = cksum (build opc p0) ∧
    (build opc p0).b8.toNat = (0xFF - (0x01 + opc.toNat + p0.toNat) % 256 + 1) % 256 ∧
    ckValid (build opc p0) = true) ∧
  ∀ (o : Operands) (s : State), ∀ i ∈ [Instr.bldrd o, .bldzero o, .bldacal o],
    ∃ opc p0 t, exec i s = .next t ∧ t.txf = build opc p0 ∧ t.txv = true ∧ ckValid t.txf = true

/-- R83: after any build operation `TXF` is one of the four frames of R49, and each of them is produced by exactly one of the
requests `BLDRD`, `BLDZERO`, `BLDACAL 1`, `BLDACAL 0` (the words `0x0`, `0x1`, `0xA`, `0x2`, R65). -/
def Obligations.BuildOperationsProduceExactlyTheFourFrames : Prop :=
  ∀ (s : State) (din : Frame) (dlen : BitVec 4),
    (∀ w ∈ [(0x0 : BitVec 4), 0x1, 0x8, 0x9, 0x2, 0xA],
      ∃ t, runRequest (.port w din dlen) s = .next t ∧ t.txf ∈ commandFrames) ∧
    ∀ f ∈ commandFrames, ∃! w : BitVec 4,
      w ∈ [(0x0 : BitVec 4), 0x1, 0xA, 0x2] ∧ ∃ t, runRequest (.port w din dlen) s = .next t ∧ t.txf = f

/-! ### The checksum -/

/-- 40_checksum.md R67: the formula, with the sum over bytes 1 to 7 and no other. -/
def Obligations.ChecksumFollowsItsFormula : Prop :=
  ∀ f : Frame, (cksum f).toNat =
    (0xFF - (f.b1.toNat + f.b2.toNat + f.b3.toNat + f.b4.toNat + f.b5.toNat + f.b6.toNat + f.b7.toNat) % 256 + 1) % 256

/-- R68: the three equivalent forms: the negation of the 8-bit sum; its complement plus one; bytes 1 to 7 and the checksum
sum to a multiple of 256, and a frame carries the right checksum exactly when its bytes 1 to 8 do. -/
def Obligations.ChecksumHasItsEquivalentForms : Prop :=
  ∀ f : Frame,
    cksum f = -(f.b1 + f.b2 + f.b3 + f.b4 + f.b5 + f.b6 + f.b7) ∧
    cksum f = ((f.b1 + f.b2 + f.b3 + f.b4 + f.b5 + f.b6 + f.b7) ^^^ 0xFF) + 1 ∧
    (f.b1.toNat + f.b2.toNat + f.b3.toNat + f.b4.toNat + f.b5.toNat + f.b6.toNat + f.b7.toNat + (cksum f).toNat) % 256 = 0 ∧
    (ckValid f = true ↔
      (f.b1.toNat + f.b2.toNat + f.b3.toNat + f.b4.toNat + f.b5.toNat + f.b6.toNat + f.b7.toNat + f.b8.toNat) % 256 = 0)

/-- R69: the corner cases: a zero sum gives `0x00`, and only a zero sum does; seven bytes `0xFF` give `0x07`. -/
def Obligations.ChecksumCornerCases : Prop :=
  (∀ f : Frame,
    (f.b1.toNat + f.b2.toNat + f.b3.toNat + f.b4.toNat + f.b5.toNat + f.b6.toNat + f.b7.toNat) % 256 = 0 ↔ cksum f = 0x00) ∧
  (∀ b0 b8 : Byte, cksum ⟨b0, 0x86, 0x7A, 0, 0, 0, 0, 0, b8⟩ = 0x00) ∧
  (∀ b0 b8 : Byte, cksum ⟨b0, 0xFF, 0xFF, 0xFF, 0xFF, 0xFF, 0xFF, 0xFF, b8⟩ = 0x07) ∧
  (∀ b0 b8 : Byte, cksum ⟨b0, 0, 0, 0, 0, 0, 0, 0, b8⟩ = 0x00)

/-- R72: `OP = 0b011` selects CKSUM; it writes the checksum of `DIN` and whether byte 8 equals it, no other register, and
has no failure mode. -/
def Obligations.CksumWritesTheChecksumAndTheVerdict : Prop :=
  ∀ (en : Bool) (din : Frame) (dlen : BitVec 4) (s : State),
    decode (.port (BitVec.ofBool en ++ (0b011 : BitVec 3)) din dlen) = .ok (.cksum ⟨en, din, dlen⟩) ∧
    ∃ t, exec (.cksum ⟨en, din, dlen⟩) s = .next t ∧
      t.ck = cksum din ∧ (t.ckok = true ↔ din.b8 = cksum din) ∧
      SameBuild s t ∧ SameParse s t ∧ SameOutside s t

/-- R73: a frame that is given its checksum at index 8 validates, whatever its other eight bytes are. -/
def Obligations.ChecksumRoundTrip : Prop :=
  ∀ (f f' : Frame), frameWrite f 8 (cksum f) = some f' → ckValid f' = true

/-- R74: a single-bit mutation of bytes 1 to 7 is detected, and so is one of byte 8; one of byte 0 never is; two changes can
cancel; a permutation of bytes 1 to 7 leaves the checksum. -/
def Obligations.ChecksumDetectsSingleBitMutationsOfBytes1To8 : Prop :=
  (∀ (f f' : Frame) (j k : Nat) (b : Byte), ckValid f = true → 1 ≤ j → j ≤ 8 → k < 8 →
    frameRead f j = some b → frameWrite f j (b ^^^ (1#8 <<< k)) = some f' → ckValid f' = false) ∧
  (∀ (f f' : Frame) (v : Byte), frameWrite f 0 v = some f' → ckValid f' = ckValid f) ∧
  (∀ f : Frame, ckValid { f with b2 := f.b2 + 1, b3 := f.b3 - 1 } = ckValid f) ∧
  (∀ f : Frame, ckValid { f with b2 := f.b2 ^^^ 0x80, b7 := f.b7 ^^^ 0x80 } = ckValid f) ∧
  (∀ f g : Frame, [f.b1, f.b2, f.b3, f.b4, f.b5, f.b6, f.b7].Perm [g.b1, g.b2, g.b3, g.b4, g.b5, g.b6, g.b7] →
    cksum f = cksum g)

/-! ### The decoder: PARSE -/

/-- 42_decode.md R94: `OP = 0b100` selects PARSE; its complete pseudocode, all four registers on every path, and nothing
else written. -/
def Obligations.ParseRunsItsThreeOrderedChecks : Prop :=
  ∀ (en : Bool) (din : Frame) (dlen : BitVec 4) (s : State),
    decode (.port (BitVec.ofBool en ++ (0b100 : BitVec 3)) din dlen) = .ok (.parse ⟨en, din, dlen⟩) ∧
    ∃ t, exec (.parse ⟨en, din, dlen⟩) s = .next t ∧ t.elen = dlen ∧
      (dlen ≠ 9 → t.eraw = Frame.zero ∧ t.ppm = 0 ∧ t.st = 2) ∧
      (dlen = 9 → t.eraw = din) ∧
      (dlen = 9 → (din.b0 ≠ 0xFF ∨ din.b1 ≠ 0x86) → t.ppm = 0 ∧ t.st = 3) ∧
      (dlen = 9 → din.b0 = 0xFF → din.b1 = 0x86 → din.b8 ≠ cksum din → t.ppm = 0 ∧ t.st = 4) ∧
      (dlen = 9 → din.b0 = 0xFF → din.b1 = 0x86 → din.b8 = cksum din →
        t.ppm.toNat = din.b2.toNat * 256 + din.b3.toNat ∧ t.st = 1) ∧
      SameBuild s t ∧ SameCheck s t ∧ SameOutside s t

/-- R90: the order of the checks, read back from the status: which inputs give which value of `ST`, and that no other value
is given. -/
def Obligations.ParseStatusNamesTheFirstFailingCheck : Prop :=
  ∀ (o : Operands) (s t : State), exec (.parse o) s = .next t →
    (t.st = stLen ↔ o.dlen ≠ 9) ∧
    (t.st = stHdr ↔ o.dlen = 9 ∧ (o.din.b0 ≠ 0xFF ∨ o.din.b1 ≠ 0x86)) ∧
    (t.st = stCks ↔ o.dlen = 9 ∧ o.din.b0 = 0xFF ∧ o.din.b1 = 0x86 ∧ o.din.b8 ≠ cksum o.din) ∧
    (t.st = stOk ↔ o.dlen = 9 ∧ o.din.b0 = 0xFF ∧ o.din.b1 = 0x86 ∧ o.din.b8 = cksum o.din) ∧
    (t.st = stLen ∨ t.st = stHdr ∨ t.st = stCks ∨ t.st = stOk)

/-- R92 (with 20_memory.md R36): two buffers that agree on every byte PARSE may read give the same outcome: no byte at an index
`>= DLEN` reaches any register. -/
def Obligations.ParseReadsOnlyReceivedBytes : Prop :=
  ∀ (en : Bool) (din din' : Frame) (dlen : BitVec 4) (s : State),
    (∀ i, receivedRead din dlen i = receivedRead din' dlen i) →
    exec (.parse ⟨en, din, dlen⟩) s = exec (.parse ⟨en, din', dlen⟩) s

/-- R91: a reserved byte of a valid response (indices 4 to 7) is summed and not read: changing one without adjusting byte 8
turns `ST_OK` into `ST_CKS`; adjusting byte 8 leaves `ST_OK` and the same `PPM`. -/
def Obligations.ReservedBytesAreSummedAndNotRead : Prop :=
  ∀ (en : Bool) (f f' f'' : Frame) (j : Nat) (b v : Byte) (s t : State),
    4 ≤ j → j ≤ 7 → frameRead f j = some b → v ≠ b →
    frameWrite f j v = some f' → frameWrite f' 8 (cksum f') = some f'' →
    exec (.parse ⟨en, f, 9⟩) s = .next t → t.st = stOk →
    (∃ u, exec (.parse ⟨en, f', 9⟩) s = .next u ∧ u.st = stCks) ∧
    (∃ u, exec (.parse ⟨en, f'', 9⟩) s = .next u ∧ u.st = stOk ∧ u.ppm = t.ppm)

/-- 95_test_vectors.md section 2.5 and 90_conflicts.md C5: a single-bit mutation of any of the nine bytes of an accepted response is
never accepted: it gives `ST_HDR` in bytes 0 and 1 and `ST_CKS` in bytes 2 to 8. -/
def Obligations.NoSingleBitMutationOfAResponseIsAccepted : Prop :=
  ∀ (en : Bool) (f f' : Frame) (j k : Nat) (b : Byte) (s t : State),
    k < 8 → frameRead f j = some b → frameWrite f j (b ^^^ (1#8 <<< k)) = some f' →
    exec (.parse ⟨en, f, 9⟩) s = .next t → t.st = stOk →
    ∃ u, exec (.parse ⟨en, f', 9⟩) s = .next u ∧ u.st = (if j ≤ 1 then stHdr else stCks)

/-- 70_reset_and_hazards.md R137: the bytes 2 to 7 of an accepted buffer are free, and bytes 0, 1 and 8 are then forced. -/
def Obligations.EveryDataChoiceHasExactlyOneAcceptedFrame : Prop :=
  ∀ (en : Bool) (b2 b3 b4 b5 b6 b7 : Byte) (s : State),
    ∃! f : Frame, f.b2 = b2 ∧ f.b3 = b3 ∧ f.b4 = b4 ∧ f.b5 = b5 ∧ f.b6 = b6 ∧ f.b7 = b7 ∧
      ∃ t, exec (.parse ⟨en, f, 9⟩) s = .next t ∧ t.st = stOk

/-- 30_encoding.md R52: nine bytes are accepted exactly when they are, as a 72-bit value, a well-formed RSP9: the match/mask pair
and the checksum in bits 7 to 0. -/
def Obligations.ParseAcceptsExactlyTheWellFormedResponses : Prop :=
  ∀ (en : Bool) (f : Frame) (s t : State), exec (.parse ⟨en, f, 9⟩) s = .next t →
    (t.st = stOk ↔ isRsp9 f.toBits = true)

/-- 30_encoding.md R54, 20_memory.md R37: the reading is big-endian: byte 2 the high byte, byte 3 the low byte, with no scaling,
clamp or overflow. -/
def Obligations.TheReadingIsBigEndian : Prop :=
  ∀ f : Frame, (ppmOf f).toNat = f.b2.toNat * 256 + f.b3.toNat ∧ ppmOf f = f.b2 ++ f.b3

/-- 60_exceptions.md R120, 42_decode.md R96: the outcome of a PARSE from the state another PARSE left is its outcome from the state
before that: no error or reading leaves a trace. -/
def Obligations.AnEarlierParseLeavesNoTrace : Prop :=
  ∀ (o o' : Operands) (s t : State), exec (.parse o) s = .next t → exec (.parse o') t = exec (.parse o') s

/-- The row RSP.CO2: that executing the row of a response frame is a PARSE of its nine bytes is the model's choice (log 4). A frame
that the FC itself builds is no response (30_encoding.md R53, R60). -/
def Obligations.ResponseFrameRowIsParsed : Prop :=
  (∀ (f : Frame) (en : Bool) (s : State),
    (∃ t, exec (.rspCo2 f) s = .next t ∧ SameBuild s t ∧ SameCheck s t ∧ SameOutside s t) ∧
    exec (.rspCo2 f) s = exec (.parse ⟨en, f, 9⟩) s) ∧
  ∀ (f : Frame) (en : Bool) (s : State), f ∈ commandFrames →
    ∃ t, exec (.parse ⟨en, f, 9⟩) s = .next t ∧ t.st = stHdr

/-! ### Operations together -/

/-- 30_encoding.md R62: a request with a reserved `OP` is refused: there is no next state. -/
def Obligations.ReservedRequestsAreRefused : Prop :=
  (∀ (o : Operands) (op : BitVec 3) (s : State),
    exec (.reqReserved5 o) s = .refused .reservedRequest ∧ exec (.reqReserved67 op o) s = .refused .reservedRequest) ∧
  ∀ (en : Bool) (op : BitVec 3) (din : Frame) (dlen : BitVec 4) (s : State) (rest : Agenda),
    op ∈ [(0b101 : BitVec 3), 0b110, 0b111] →
    s.agenda.next = some (.request (.port (BitVec.ofBool en ++ op) din dlen), rest) →
    step s = .refused .reservedRequest

/-- 10_state.md R16 and R25: every operation writes every register of its own group with values that are the same from any two
states, and no register of another group. That the four command frame rows and RSP.CO2 count as operations of a group is the
model's choice (logs 3, 4). -/
def Obligations.OperationsAreStatelessWithinTheirGroup : Prop :=
  ∀ (i : Instr) (g : Group), groupOf i = some g → ∀ s s' : State,
    ∃ t t', exec i s = .next t ∧ exec i s' = .next t' ∧ g.Same t t' ∧
      (∀ g', g' ≠ g → g'.Same s t) ∧ SameOutside s t

/-- 20_memory.md R41, 41_encode.md R81: repeating a request leaves the same state as issuing it once. That this takes in the four
command frame rows and RSP.CO2, with the effects the model gives them, is the model's choice (logs 3, 4). -/
def Obligations.OperationsAreIdempotent : Prop :=
  ∀ (i : Instr) (s t : State), (groupOf i).isSome → exec i s = .next t → exec i t = .next t

/-- 30_encoding.md R63: the operand bits that are ignored: `EN` by all but BLDACAL, `DIN` and `DLEN` by the builds, `DLEN` and `DIN[0]`
by CKSUM. -/
def Obligations.IgnoredOperandBitsDoNotMatter : Prop :=
  ∀ s : State,
    (∀ (din : Frame) (dlen : BitVec 4), ∀ w ∈ [(0x0 : BitVec 4), 0x1, 0x3, 0x4],
      runRequest (.port (w ||| 0x8) din dlen) s = runRequest (.port w din dlen) s) ∧
    (∀ (din din' : Frame) (dlen dlen' : BitVec 4), ∀ w ∈ [(0x0 : BitVec 4), 0x1, 0x2, 0x8, 0x9, 0xA],
      runRequest (.port w din dlen) s = runRequest (.port w din' dlen') s) ∧
    (∀ (din : Frame) (b : Byte) (dlen dlen' : BitVec 4), ∀ w ∈ [(0x3 : BitVec 4), 0xB],
      runRequest (.port w din dlen) s = runRequest (.port w { din with b0 := b } dlen') s)

/-- 43_transactions.md R104: each of the ten admitted request words completes from every state, with any operands. -/
def Obligations.EveryAdmittedRequestCompletes : Prop :=
  ∀ (w : BitVec 4) (din : Frame) (dlen : BitVec 4) (s : State) (rest : Agenda),
    (w &&& 0x7).toNat ≤ 4 → s.agenda.next = some (.request (.port w din dlen), rest) →
    ∃ t, step s = .next t ∧ t.agenda = rest ∧ t.transport = s.transport ∧ t.result = s.result

/-! ### Encoding -/

/-- 30_encoding.md R58, R62: every four-bit word falls under exactly one row of the REQ table, and bit 3 never changes which. -/
def Obligations.EveryRequestWordHasExactlyOneRow : Prop :=
  ∀ w : BitVec 4, (reqRows.filter (·.matchesWord w)).length = 1 ∧
    ∀ r ∈ reqRows, r.matchesWord (w ^^^ 0x8) = r.matchesWord w

/-- Words written out from the encodings of 30_encoding.md R49, R52, R57, R65 decode to the instructions they stand for. That a
four-bit word is taken from one byte, with zero operands beside it, is the model's choice (log 13), and so is that a command
frame can be presented at all, and one that is none of the four is rejected (log 3). -/
def Obligations.SampleWordsDecode : Prop :=
  decodeTableWord 8 0x0 = some (.bldrd ⟨false, Frame.zero, 0⟩) ∧
  decodeTableWord 8 0x9 = some (.bldzero ⟨true, Frame.zero, 0⟩) ∧
  decodeTableWord 8 0xA = some (.bldacal ⟨true, Frame.zero, 0⟩) ∧
  decodeTableWord 8 0xD = some (.reqReserved5 ⟨true, Frame.zero, 0⟩) ∧
  decodeTableWord 8 0x7 = some (.reqReserved67 7 ⟨false, Frame.zero, 0⟩) ∧
  decodeTableWord 72 0xFF0179A000000000E6 = some .cmdAcalOn ∧
  decodeTableWord 72 0xFF8603200000000057 = some (.rspCo2 ⟨0xFF, 0x86, 0x03, 0x20, 0, 0, 0, 0, 0x57⟩) ∧
  decode (.command ⟨0xFF, 0x01, 0x88, 0, 0, 0, 0, 0, 0x77⟩) = .reject .notACommandFrame ∧
  decode (.transaction (.setacal true)) = .ok (.setacal true)

/-- Decoding the encoding of a well-formed instruction gives it back, every operand at every value. -/
def Obligations.DecodeEncodeRoundTrip : Prop :=
  ∀ i : Instr, i.wellFormed = true → decode (encode i) = .ok i

/-- Whatever is decoded is well-formed, and re-encodes to what was presented: except nine received bytes that are no response,
which are presented with PARSE (log 4). -/
def Obligations.EncodeDecodeRoundTrip : Prop :=
  ∀ (r : Request) (i : Instr), decode r = .ok i →
    i.wellFormed = true ∧
    (encode i = r ∨ ∃ f, r = .received f ∧ (f.b0 ≠ 0xFF ∨ f.b1 ≠ 0x86) ∧ i = .parse ⟨false, f, 9⟩)

/-- 30_encoding.md R53: CMD9 is never applied to a received frame, nor RSP9 to a built one. That nine received bytes become RSP.CO2
or PARSE (log 4), and that the row of a command frame puts that frame into `TXF` (log 3), is the model's choice. -/
def Obligations.FrameFormatsAreNotMixed : Prop :=
  ∀ (f : Frame) (i : Instr),
    (decode (.received f) = .ok i → i = .rspCo2 f ∨ i = .parse ⟨false, f, 9⟩) ∧
    (decode (.command f) = .ok i → f ∈ commandFrames ∧ f.b1 = 0x01 ∧ groupOf i = some .build ∧
      ∀ s, ∃ t, exec i s = .next t ∧ t.txf = f)

/-- 00_scope.md R12: a frame and its 72-bit value determine each other, `F[i]` being bits `71-8i : 64-8i`. -/
def Obligations.FramesAndNumbersRoundTrip : Prop :=
  (∀ f : Frame, Frame.ofNat f.toBits.toNat = f) ∧
  (∀ w : BitVec 72, (Frame.ofNat w.toNat).toBits = w) ∧
  (∀ (f : Frame) (i : Nat), i ≤ 8 → frameRead f i = some (f.toBits.extractLsb' (64 - 8 * i) 8))

/-! ### Transactions -/

/-- 43_transactions.md R98: READCO2 in an open session: the command frame is handed to `write`; an IOError of `write` or `read` ends it
with IOError; otherwise what was read is parsed, and the result is `PPM` if `ST = ST_OK`, else the error `ST` names. That it is one step (log 5), that
the bytes given to `write` are recorded whatever it answers (log 10) and how the answers are drawn (log 6) is the model's choice. -/
def Obligations.Readco2FollowsItsSequence : Prop :=
  ∀ (s : State), s.transport.session = .opened →
    let sent := s.transport.afterWrite [0xFF, 0x01, 0x86, 0, 0, 0, 0, 0, 0x79]
    (s.transport.writeAnswer = .ioError →
      ∃ t, exec .readco2 s = .next t ∧ t.result = some (.error .ioError) ∧ t.transport = sent ∧
        t.txf = ⟨0xFF, 0x01, 0x86, 0, 0, 0, 0, 0, 0x79⟩ ∧ t.txv = true ∧ SameCheck s t ∧ SameParse s t ∧ t.agenda = s.agenda) ∧
    (s.transport.writeAnswer = .count 9 → sent.readAnswer = .ioError →
      ∃ t, exec .readco2 s = .next t ∧ t.result = some (.error .ioError) ∧ t.transport = sent.afterRead ∧
        t.txf = ⟨0xFF, 0x01, 0x86, 0, 0, 0, 0, 0, 0x79⟩ ∧ t.txv = true ∧ SameCheck s t ∧ SameParse s t ∧ t.agenda = s.agenda) ∧
    (∀ n buf, s.transport.writeAnswer = .count 9 → sent.readAnswer = .count n buf →
      ∃ t u, exec .readco2 s = .next t ∧ exec (.parse ⟨false, buf, BitVec.ofNat 4 n.val⟩) s = .next u ∧ SameParse u t ∧
        t.transport = sent.afterRead ∧ t.txf = ⟨0xFF, 0x01, 0x86, 0, 0, 0, 0, 0, 0x79⟩ ∧ t.txv = true ∧
        SameCheck s t ∧ t.agenda = s.agenda ∧
        (t.st = stOk → t.result = some (.reading t.ppm)) ∧
        (t.st = stLen → t.result = some (.error (.protocol (.length t.elen)))) ∧
        (t.st = stHdr → t.result = some (.error (.protocol (.header t.eraw)))) ∧
        (t.st = stCks → t.result = some (.error (.protocol .checksum))))

/-- 43_transactions.md R99: CALZERO in an open session: the frame is handed to `write`; the outcome is success or IOError; nothing is
read back (R101). That it is one step (log 5), that the bytes are recorded also on IOError (log 10) and how the answer is drawn
(log 6) is the model's choice. -/
def Obligations.CalzeroIsFireAndForget : Prop :=
  ∀ (s : State), s.transport.session = .opened →
    let sent := s.transport.afterWrite [0xFF, 0x01, 0x87, 0, 0, 0, 0, 0, 0x78]
    (s.transport.writeAnswer = .count 9 →
      ∃ t, exec .calzero s = .next t ∧ t.result = some .success ∧ t.transport = sent ∧
        t.txf = ⟨0xFF, 0x01, 0x87, 0, 0, 0, 0, 0, 0x78⟩ ∧ t.txv = true ∧ SameCheck s t ∧ SameParse s t ∧ t.agenda = s.agenda) ∧
    (s.transport.writeAnswer = .ioError →
      ∃ t, exec .calzero s = .next t ∧ t.result = some (.error .ioError) ∧ t.transport = sent ∧
        t.txf = ⟨0xFF, 0x01, 0x87, 0, 0, 0, 0, 0, 0x78⟩ ∧ t.txv = true ∧ SameCheck s t ∧ SameParse s t ∧ t.agenda = s.agenda)

/-- 43_transactions.md R100: SETACAL e in an open session, both values of `e`: the frame of `e` is handed to `write`; the outcome is
success or IOError; nothing is read back (R101). That it is one step (log 5), that the bytes are recorded also on IOError (log 10)
and how the answer is drawn (log 6) is the model's choice. -/
def Obligations.SetacalIsFireAndForget : Prop :=
  ∀ (e : Bool) (s : State), s.transport.session = .opened →
    let f : Frame := if e then ⟨0xFF, 0x01, 0x79, 0xA0, 0, 0, 0, 0, 0xE6⟩ else ⟨0xFF, 0x01, 0x79, 0, 0, 0, 0, 0, 0x86⟩
    let sent := s.transport.afterWrite (frameBytes f)
    (s.transport.writeAnswer = .count 9 →
      ∃ t, exec (.setacal e) s = .next t ∧ t.result = some .success ∧ t.transport = sent ∧
        t.txf = f ∧ t.txv = true ∧ SameCheck s t ∧ SameParse s t ∧ t.agenda = s.agenda) ∧
    (s.transport.writeAnswer = .ioError →
      ∃ t, exec (.setacal e) s = .next t ∧ t.result = some (.error .ioError) ∧ t.transport = sent ∧
        t.txf = f ∧ t.txv = true ∧ SameCheck s t ∧ SameParse s t ∧ t.agenda = s.agenda)

/-- Where a transaction stops, and that it stops nowhere else: on a partial write it is stuck (93_implementation_defined.md U10; the
model's choice of a fault, log 7), and without an open transport, a failed `close` included, it is refused (43_transactions.md R106;
the model's choices, logs 8, 9). -/
def Obligations.TransactionsStopOnlyAsNamed : Prop :=
  ∀ (i : Instr) (s : State), (i = .readco2 ∨ i = .calzero ∨ ∃ e, i = .setacal e) →
    (s.transport.session ≠ .opened → exec i s = .refused .transportNotOpen) ∧
    (∀ n, s.transport.session = .opened → s.transport.writeAnswer = .count n → n ≠ 9 → exec i s = .fault .partialWrite) ∧
    (∀ f, exec i s = .fault f →
      f = .partialWrite ∧ s.transport.session = .opened ∧ ∃ n, s.transport.writeAnswer = .count n ∧ n ≠ 9) ∧
    (∀ r, exec i s = .refused r → r = .transportNotOpen ∧ s.transport.session ≠ .opened)

/-- R102: when the transport fails, the FC is not invoked: a transaction that ends with IOError leaves the whole PARSE and
CHECK groups as they were. -/
def Obligations.TransportErrorsPassTheCodecBy : Prop :=
  ∀ (i : Instr) (s t : State), (i = .readco2 ∨ i = .calzero ∨ ∃ e, i = .setacal e) →
    exec i s = .next t → t.result = some (.error .ioError) → SameParse s t ∧ SameCheck s t

/-- 60_exceptions.md R115, none swallowed: whatever the transport answers, a READCO2 that returns a reading read nine bytes that pass
all three checks, and the reading is theirs. -/
def Obligations.AReadingIsNeverReturnedForABadResponse : Prop :=
  ∀ (s t : State) (p : BitVec 16), exec .readco2 s = .next t → t.result = some (.reading p) →
    ∃ n buf, (s.transport.afterWrite [0xFF, 0x01, 0x86, 0, 0, 0, 0, 0, 0x79]).readAnswer = .count n buf ∧ n = 9 ∧
      buf.b0 = 0xFF ∧ buf.b1 = 0x86 ∧ buf.b8 = cksum buf ∧ p.toNat = buf.b2.toNat * 256 + buf.b3.toNat

/-- R98: the transaction is its parts: where the transport takes the frame and answers, READCO2 leaves the registers that the two
requests BLDRD and PARSE of what was read leave, issued one after the other (that it is one step is the model's choice, log 5). -/
def Obligations.Readco2RefinesBldrdThenParse : Prop :=
  ∀ (s : State) (n : Fin 10) (buf : Frame),
    s.transport.session = .opened → s.transport.writeAnswer = .count 9 →
    (s.transport.afterWrite [0xFF, 0x01, 0x86, 0, 0, 0, 0, 0, 0x79]).readAnswer = .count n buf →
    ∃ t v u, exec .readco2 s = .next t ∧
      step (s.withAgenda ⟨[.request (.port 0x0 Frame.zero 0), .request (.port 0x4 buf (BitVec.ofNat 4 n.val))], none⟩) = .next v ∧
      step v = .next u ∧ SameRegisters u t

/-- R97, R106, R113: `open` on a closed transport gives an open one or ends the session with ConnectionError, and `close` on an open one
closes it or fails with IOError; neither touches a register. Outside that order they are refused, and a failed `close` leaves
the model's own state `closeFailed` (log 9). -/
def Obligations.OpenAndCloseFollowTheSession : Prop :=
  ∀ s : State,
    (s.transport.session = .closed → s.transport.openAnswer = .handle →
      ∃ t, runOpen s = .next t ∧ t.transport.session = .opened ∧ t.result = some .success ∧ SameRegisters s t) ∧
    (s.transport.session = .closed → s.transport.openAnswer = .connectionError →
      ∃ t, runOpen s = .next t ∧ t.transport.session = .openFailed ∧ t.result = some (.error .connectionError) ∧ SameRegisters s t) ∧
    (s.transport.session ≠ .closed → runOpen s = .refused .sessionOrder) ∧
    (s.transport.session = .opened → s.transport.closeAnswer = .closed →
      ∃ t, runClose s = .next t ∧ t.transport.session = .closed ∧ t.result = some .success ∧ SameRegisters s t) ∧
    (s.transport.session = .opened → s.transport.closeAnswer = .ioError →
      ∃ t, runClose s = .next t ∧ t.transport.session = .closeFailed ∧ t.result = some (.error .ioError) ∧ SameRegisters s t) ∧
    (s.transport.session ≠ .opened → runClose s = .refused .sessionOrder)

/-! ### The whole machine -/

/-- A step runs what is presented: a request that decodes to `i` is `exec i`, with the request taken off the agenda (43_transactions.md
R104). That reset, `open` and `close` are events of the agenda beside the requests (log 1), that an agenda that has ended refuses the
step (log 12) and that an infinite one goes on with free events (log 17) is the model's choice. -/
def Obligations.StepRunsTheDecodedInstruction : Prop :=
  (∀ (s : State) (rest : Agenda),
    (∀ r i, s.agenda.next = some (.request r, rest) → decode r = .ok i → i.wellFormed = true →
      step s = exec i { s with agenda := rest }) ∧
    (∀ r e, s.agenda.next = some (.request r, rest) → decode r = .reject e → step s = .refused (.rejected e)) ∧
    (s.agenda.next = some (.reset, rest) → step s = runReset { s with agenda := rest }) ∧
    (s.agenda.next = some (.openTransport, rest) → step s = runOpen { s with agenda := rest }) ∧
    (s.agenda.next = some (.closeTransport, rest) → step s = runClose { s with agenda := rest }) ∧
    (s.agenda.next = none → step s = .refused .nothingPresented)) ∧
  (∀ e l more, Agenda.next ⟨e :: l, more⟩ = some (e, ⟨l, more⟩)) ∧
  (∀ k, Agenda.next ⟨[], some k⟩ = some (Config.freeEvent k, ⟨[], some (k + 1)⟩)) ∧
  Agenda.next ⟨[], none⟩ = none

/-- 10_state.md R32: the reset values of the eight registers. -/
def Obligations.ResetValuesAreZero : Prop :=
  State.reset.txf = ⟨0, 0, 0, 0, 0, 0, 0, 0, 0⟩ ∧ State.reset.txv = false ∧ State.reset.ck = 0 ∧ State.reset.ckok = false ∧
  State.reset.st = stNone ∧ State.reset.ppm = 0 ∧ State.reset.elen = 0 ∧ State.reset.eraw = ⟨0, 0, 0, 0, 0, 0, 0, 0, 0⟩

/-- 70_reset_and_hazards.md R127: a reset puts every register at its reset value, and it is the only event that leads to `ST_NONE` or to
`TXV = 0`. That it leaves the agenda, the transport and the result as they were is the model's choice (log 16). -/
def Obligations.OnlyResetReachesStNoneOrClearsTxv : Prop :=
  (∀ (s : State) (rest : Agenda), s.agenda.next = some (.reset, rest) →
    ∃ t, step s = .next t ∧ SameRegisters State.reset t ∧ t.agenda = rest ∧ t.transport = s.transport ∧ t.result = s.result) ∧
  ∀ (s t : State) (e : Event) (rest : Agenda), s.agenda.next = some (e, rest) → e ≠ .reset → step s = .next t →
    (t.st = stNone → s.st = stNone) ∧ (t.txv = false → s.txv = false)

/-- The reset state has the invariant of the registers. -/
def Obligations.ResetHasTheRegisterInvariant : Prop := State.Inv State.reset

/-- Every step keeps the invariant of the registers: `TXV` tells a command frame from the reset value, and each value of `ST` says what
`PPM`, `ELEN` and `ERAW` hold (R18, R21 to R24, R49, R94). -/
def Obligations.EveryStepKeepsTheRegisterInvariant : Prop :=
  ∀ s t : State, s.Inv → step s = .next t → t.Inv

/-- At reset nothing has been handed to the transport, and so nothing but whole command frames. That the record of what was handed
over is empty at reset is the model's choice (log 10). -/
def Obligations.NothingIsHandedOverAtReset : Prop := State.reset.transport.handed = [] ∧ OnlyCommandsHanded State.reset

/-- Every step keeps: the record of what was handed to the transport is a sequence of whole command frames of 30_encoding.md R49, the
only ones the FC can build (R61, 41_encode.md R83) and the ones the transactions hand over (43_transactions.md R98 to R100). The record
is the model's own: it is kept also where `write` answers IOError (log 10), and a partial write leaves no next state (log 7). It says
nothing of what was sent on the line (70_reset_and_hazards.md R140). -/
def Obligations.OnlyCommandFramesAreEverHandedOver : Prop :=
  ∀ s t : State, OnlyCommandsHanded s → step s = .next t → OnlyCommandsHanded t

/-- R133: in a state with the register invariant, a value that passes the guard `ST = ST_OK` is the reading of a well-formed response that
stands in `ERAW`, and a frame that passes the guard `TXV = 1` is one of the four command frames. -/
def Obligations.GuardedRegistersAreTrustworthy : Prop :=
  ∀ s : State, s.Inv →
    (∀ p, s.reading = some p → isRsp9 s.eraw.toBits = true ∧ p = s.eraw.b2 ++ s.eraw.b3) ∧
    (∀ f, s.commandFrame = some f → f ∈ commandFrames ∧ ckValid f = true)

/-! ### Runs and textual calls -/

/-- 43_transactions.md R104: a run over any finite or infinite sequence, from any state, the reset state among them: one step per request;
it ends with the sequence, in the state after the last step; over admitted request words, with any operands and in any order, it
is never stuck and never faults; a reserved request word is refused and the run has no continuation from there. -/
def Obligations.RunsTakeOneStepPerRequest : Prop :=
  ∀ (q : Nat → Event) (len : Option Nat) (s : State),
    runOver q len s 0 = .next s ∧
    (∀ n t r, eventAt q len n = some (.request r) → runOver q len s n = .next t → runOver q len s (n + 1) = runRequest r t) ∧
    (∀ n m, eventAt q len n = none → n ≤ m → runOver q len s m = runOver q len s n) ∧
    ((∀ n e, eventAt q len n = some e → Admitted e) → ∀ n, ∃ t, runOver q len s n = .next t ∧ SameOutside s t) ∧
    (∀ n t w din dlen, eventAt q len n = some (.request (.port w din dlen)) → 4 < (w &&& 0x7).toNat →
      runOver q len s n = .next t → ∀ m, n < m → runOver q len s m = .refused .reservedRequest)

/-- The machine runs the sequence its agenda stands for (43_transactions.md R104): its `n` steps are the run over the first `n` events,
with those events taken off. After the last event of a finite sequence it takes no step; an infinite one never runs out. How the
sequence stands in State is the model's choice (logs 1, 12, 17). -/
def Obligations.TheMachineRunsItsAgenda : Prop :=
  (∀ (s : State) (n : Nat), (∀ k, s.agenda.length = some k → n ≤ k) →
    steps s n = onNext (·.withAgenda (s.agenda.drop n)) (runOver s.agenda.event s.agenda.length s n)) ∧
  (∀ (s t : State) (k : Nat), s.agenda.length = some k → steps s k = .next t → step t = .refused .nothingPresented) ∧
  ∀ (s t : State) (n : Nat), s.agenda.length = none → steps s n = .next t → step t ≠ .refused .nothingPresented

/-- 30_encoding.md R65, R66: what the textual calls decode to. That an operand, or a byte lane, that a call does not write is zero is the
model's choice (log 14). -/
def Obligations.TextualCallsDecodeToTheirOperations : Prop :=
  decode Call.bldrd.request = .ok (.bldrd ⟨false, Frame.zero, 0⟩) ∧
  decode Call.bldzero.request = .ok (.bldzero ⟨false, Frame.zero, 0⟩) ∧
  (∀ e : Bool, decode (Call.bldacal e).request = .ok (.bldacal ⟨e, Frame.zero, 0⟩)) ∧
  (∀ f : Frame, decode (Call.cksum f).request = .ok (.cksum ⟨false, f, 0⟩)) ∧
  (∀ (n : BitVec 4) (raw : List Byte), ∃ f, decode (Call.parse n raw).request = .ok (.parse ⟨false, f, n⟩) ∧
    ∀ i, i ≤ 8 → frameRead f i = some (raw.getD i 0)) ∧
  decode Call.readco2.request = .ok .readco2 ∧
  decode Call.calzero.request = .ok .calzero ∧
  ∀ e : Bool, decode (Call.setacal e).request = .ok (.setacal e)
end

