-- ==== Sys2Proof/Laws/State.lean ====
section
/-! SUPPORT. One lemma per field per update of State and of Transport, true by rfl. -/

namespace Sys2Proof.Machine

section
variable (s : State) (f : Frame) (c : Byte) (b : Bool) (st : BitVec 3) (p : BitVec 16) (n : BitVec 4)
  (l : Agenda) (r : CallResult) (tr : Transport)

@[simp] theorem State.writeBuild_txf : (s.writeBuild f).txf = f := rfl
@[simp] theorem State.writeBuild_txv : (s.writeBuild f).txv = true := rfl
@[simp] theorem State.writeBuild_ck : (s.writeBuild f).ck = s.ck := rfl
@[simp] theorem State.writeBuild_ckok : (s.writeBuild f).ckok = s.ckok := rfl
@[simp] theorem State.writeBuild_st : (s.writeBuild f).st = s.st := rfl
@[simp] theorem State.writeBuild_ppm : (s.writeBuild f).ppm = s.ppm := rfl
@[simp] theorem State.writeBuild_elen : (s.writeBuild f).elen = s.elen := rfl
@[simp] theorem State.writeBuild_eraw : (s.writeBuild f).eraw = s.eraw := rfl
@[simp] theorem State.writeBuild_agenda : (s.writeBuild f).agenda = s.agenda := rfl
@[simp] theorem State.writeBuild_transport : (s.writeBuild f).transport = s.transport := rfl
@[simp] theorem State.writeBuild_result : (s.writeBuild f).result = s.result := rfl

@[simp] theorem State.writeCheck_txf : (s.writeCheck c b).txf = s.txf := rfl
@[simp] theorem State.writeCheck_txv : (s.writeCheck c b).txv = s.txv := rfl
@[simp] theorem State.writeCheck_ck : (s.writeCheck c b).ck = c := rfl
@[simp] theorem State.writeCheck_ckok : (s.writeCheck c b).ckok = b := rfl
@[simp] theorem State.writeCheck_st : (s.writeCheck c b).st = s.st := rfl
@[simp] theorem State.writeCheck_ppm : (s.writeCheck c b).ppm = s.ppm := rfl
@[simp] theorem State.writeCheck_elen : (s.writeCheck c b).elen = s.elen := rfl
@[simp] theorem State.writeCheck_eraw : (s.writeCheck c b).eraw = s.eraw := rfl
@[simp] theorem State.writeCheck_agenda : (s.writeCheck c b).agenda = s.agenda := rfl
@[simp] theorem State.writeCheck_transport : (s.writeCheck c b).transport = s.transport := rfl
@[simp] theorem State.writeCheck_result : (s.writeCheck c b).result = s.result := rfl

@[simp] theorem State.writeParse_txf : (s.writeParse st p n f).txf = s.txf := rfl
@[simp] theorem State.writeParse_txv : (s.writeParse st p n f).txv = s.txv := rfl
@[simp] theorem State.writeParse_ck : (s.writeParse st p n f).ck = s.ck := rfl
@[simp] theorem State.writeParse_ckok : (s.writeParse st p n f).ckok = s.ckok := rfl
@[simp] theorem State.writeParse_st : (s.writeParse st p n f).st = st := rfl
@[simp] theorem State.writeParse_ppm : (s.writeParse st p n f).ppm = p := rfl
@[simp] theorem State.writeParse_elen : (s.writeParse st p n f).elen = n := rfl
@[simp] theorem State.writeParse_eraw : (s.writeParse st p n f).eraw = f := rfl
@[simp] theorem State.writeParse_agenda : (s.writeParse st p n f).agenda = s.agenda := rfl
@[simp] theorem State.writeParse_transport : (s.writeParse st p n f).transport = s.transport := rfl
@[simp] theorem State.writeParse_result : (s.writeParse st p n f).result = s.result := rfl

@[simp] theorem State.withAgenda_txf : (s.withAgenda l).txf = s.txf := rfl
@[simp] theorem State.withAgenda_txv : (s.withAgenda l).txv = s.txv := rfl
@[simp] theorem State.withAgenda_ck : (s.withAgenda l).ck = s.ck := rfl
@[simp] theorem State.withAgenda_ckok : (s.withAgenda l).ckok = s.ckok := rfl
@[simp] theorem State.withAgenda_st : (s.withAgenda l).st = s.st := rfl
@[simp] theorem State.withAgenda_ppm : (s.withAgenda l).ppm = s.ppm := rfl
@[simp] theorem State.withAgenda_elen : (s.withAgenda l).elen = s.elen := rfl
@[simp] theorem State.withAgenda_eraw : (s.withAgenda l).eraw = s.eraw := rfl
@[simp] theorem State.withAgenda_agenda : (s.withAgenda l).agenda = l := rfl
@[simp] theorem State.withAgenda_transport : (s.withAgenda l).transport = s.transport := rfl
@[simp] theorem State.withAgenda_result : (s.withAgenda l).result = s.result := rfl

@[simp] theorem State.withResult_txf : (s.withResult r).txf = s.txf := rfl
@[simp] theorem State.withResult_txv : (s.withResult r).txv = s.txv := rfl
@[simp] theorem State.withResult_ck : (s.withResult r).ck = s.ck := rfl
@[simp] theorem State.withResult_ckok : (s.withResult r).ckok = s.ckok := rfl
@[simp] theorem State.withResult_st : (s.withResult r).st = s.st := rfl
@[simp] theorem State.withResult_ppm : (s.withResult r).ppm = s.ppm := rfl
@[simp] theorem State.withResult_elen : (s.withResult r).elen = s.elen := rfl
@[simp] theorem State.withResult_eraw : (s.withResult r).eraw = s.eraw := rfl
@[simp] theorem State.withResult_agenda : (s.withResult r).agenda = s.agenda := rfl
@[simp] theorem State.withResult_transport : (s.withResult r).transport = s.transport := rfl
@[simp] theorem State.withResult_result : (s.withResult r).result = some r := rfl

@[simp] theorem State.withTransport_txf : (s.withTransport tr).txf = s.txf := rfl
@[simp] theorem State.withTransport_txv : (s.withTransport tr).txv = s.txv := rfl
@[simp] theorem State.withTransport_ck : (s.withTransport tr).ck = s.ck := rfl
@[simp] theorem State.withTransport_ckok : (s.withTransport tr).ckok = s.ckok := rfl
@[simp] theorem State.withTransport_st : (s.withTransport tr).st = s.st := rfl
@[simp] theorem State.withTransport_ppm : (s.withTransport tr).ppm = s.ppm := rfl
@[simp] theorem State.withTransport_elen : (s.withTransport tr).elen = s.elen := rfl
@[simp] theorem State.withTransport_eraw : (s.withTransport tr).eraw = s.eraw := rfl
@[simp] theorem State.withTransport_agenda : (s.withTransport tr).agenda = s.agenda := rfl
@[simp] theorem State.withTransport_transport : (s.withTransport tr).transport = tr := rfl
@[simp] theorem State.withTransport_result : (s.withTransport tr).result = s.result := rfl

@[simp] theorem State.resetRegisters_txf : s.resetRegisters.txf = Frame.zero := rfl
@[simp] theorem State.resetRegisters_txv : s.resetRegisters.txv = false := rfl
@[simp] theorem State.resetRegisters_ck : s.resetRegisters.ck = 0 := rfl
@[simp] theorem State.resetRegisters_ckok : s.resetRegisters.ckok = false := rfl
@[simp] theorem State.resetRegisters_st : s.resetRegisters.st = stNone := rfl
@[simp] theorem State.resetRegisters_ppm : s.resetRegisters.ppm = 0 := rfl
@[simp] theorem State.resetRegisters_elen : s.resetRegisters.elen = 0 := rfl
@[simp] theorem State.resetRegisters_eraw : s.resetRegisters.eraw = Frame.zero := rfl
@[simp] theorem State.resetRegisters_agenda : s.resetRegisters.agenda = s.agenda := rfl
@[simp] theorem State.resetRegisters_transport : s.resetRegisters.transport = s.transport := rfl
@[simp] theorem State.resetRegisters_result : s.resetRegisters.result = s.result := rfl

@[simp] theorem State.handOver_txf : s.handOver.txf = s.txf := rfl
@[simp] theorem State.handOver_txv : s.handOver.txv = s.txv := rfl
@[simp] theorem State.handOver_ck : s.handOver.ck = s.ck := rfl
@[simp] theorem State.handOver_ckok : s.handOver.ckok = s.ckok := rfl
@[simp] theorem State.handOver_st : s.handOver.st = s.st := rfl
@[simp] theorem State.handOver_ppm : s.handOver.ppm = s.ppm := rfl
@[simp] theorem State.handOver_elen : s.handOver.elen = s.elen := rfl
@[simp] theorem State.handOver_eraw : s.handOver.eraw = s.eraw := rfl
@[simp] theorem State.handOver_agenda : s.handOver.agenda = s.agenda := rfl
@[simp] theorem State.handOver_transport : s.handOver.transport = s.transport.afterWrite (frameBytes s.txf) := rfl
@[simp] theorem State.handOver_result : s.handOver.result = s.result := rfl

@[simp] theorem State.collect_txf : s.collect.txf = s.txf := rfl
@[simp] theorem State.collect_txv : s.collect.txv = s.txv := rfl
@[simp] theorem State.collect_ck : s.collect.ck = s.ck := rfl
@[simp] theorem State.collect_ckok : s.collect.ckok = s.ckok := rfl
@[simp] theorem State.collect_st : s.collect.st = s.st := rfl
@[simp] theorem State.collect_ppm : s.collect.ppm = s.ppm := rfl
@[simp] theorem State.collect_elen : s.collect.elen = s.elen := rfl
@[simp] theorem State.collect_eraw : s.collect.eraw = s.eraw := rfl
@[simp] theorem State.collect_agenda : s.collect.agenda = s.agenda := rfl
@[simp] theorem State.collect_transport : s.collect.transport = s.transport.afterRead := rfl
@[simp] theorem State.collect_result : s.collect.result = s.result := rfl

end

section
variable (t : Transport) (v : Session) (l : List Byte)

@[simp] theorem Transport.afterOpen_session : (t.afterOpen v).session = v := rfl
@[simp] theorem Transport.afterOpen_handed : (t.afterOpen v).handed = t.handed := rfl
@[simp] theorem Transport.afterOpen_opens : (t.afterOpen v).opens = t.opens.tail := rfl
@[simp] theorem Transport.afterOpen_writes : (t.afterOpen v).writes = t.writes := rfl
@[simp] theorem Transport.afterOpen_reads : (t.afterOpen v).reads = t.reads := rfl
@[simp] theorem Transport.afterOpen_closes : (t.afterOpen v).closes = t.closes := rfl

@[simp] theorem Transport.afterWrite_session : (t.afterWrite l).session = t.session := rfl
@[simp] theorem Transport.afterWrite_handed : (t.afterWrite l).handed = t.handed ++ l := rfl
@[simp] theorem Transport.afterWrite_opens : (t.afterWrite l).opens = t.opens := rfl
@[simp] theorem Transport.afterWrite_writes : (t.afterWrite l).writes = t.writes.tail := rfl
@[simp] theorem Transport.afterWrite_reads : (t.afterWrite l).reads = t.reads := rfl
@[simp] theorem Transport.afterWrite_closes : (t.afterWrite l).closes = t.closes := rfl

@[simp] theorem Transport.afterRead_session : t.afterRead.session = t.session := rfl
@[simp] theorem Transport.afterRead_handed : t.afterRead.handed = t.handed := rfl
@[simp] theorem Transport.afterRead_opens : t.afterRead.opens = t.opens := rfl
@[simp] theorem Transport.afterRead_writes : t.afterRead.writes = t.writes := rfl
@[simp] theorem Transport.afterRead_reads : t.afterRead.reads = t.reads.tail := rfl
@[simp] theorem Transport.afterRead_closes : t.afterRead.closes = t.closes := rfl

@[simp] theorem Transport.afterClose_session : (t.afterClose v).session = v := rfl
@[simp] theorem Transport.afterClose_handed : (t.afterClose v).handed = t.handed := rfl
@[simp] theorem Transport.afterClose_opens : (t.afterClose v).opens = t.opens := rfl
@[simp] theorem Transport.afterClose_writes : (t.afterClose v).writes = t.writes := rfl
@[simp] theorem Transport.afterClose_reads : (t.afterClose v).reads = t.reads := rfl
@[simp] theorem Transport.afterClose_closes : (t.afterClose v).closes = t.closes.tail := rfl

end

end Sys2Proof.Machine
end

