-- ==== Sys2Proof/Laws/Ops.lean ====
section
/-! SUPPORT. What each shared operation does, said once: frames, the checksum, the three checks, raising, the transport. -/

namespace Sys2Proof.Machine

/-! ### Frames (20_memory.md R34 to R36) -/

theorem frameRead_isSome (f : Frame) (i : Nat) : (frameRead f i).isSome = true ↔ i ≤ 8 :=
  match i with
  | 0 | 1 | 2 | 3 | 4 | 5 | 6 | 7 | 8 => by simp [frameRead]
  | n + 9 => by simp [frameRead]

theorem frameWrite_isSome (f : Frame) (i : Nat) (v : Byte) : (frameWrite f i v).isSome = true ↔ i ≤ 8 :=
  match i with
  | 0 | 1 | 2 | 3 | 4 | 5 | 6 | 7 | 8 => by simp [frameWrite]
  | n + 9 => by simp [frameWrite]

/-- A read after a write to the same index gives the value written. -/
theorem frameRead_frameWrite_same {f f' : Frame} {i : Nat} {v : Byte} (h : frameWrite f i v = some f') :
    frameRead f' i = some v :=
  match i, h with
  | 0, h | 1, h | 2, h | 3, h | 4, h | 5, h | 6, h | 7, h | 8, h => by cases h; rfl

/-- A write leaves every other index alone (R35). -/
theorem frameRead_frameWrite_other {f f' : Frame} {i j : Nat} {v : Byte} (h : frameWrite f i v = some f') (hij : j ≠ i) :
    frameRead f' j = frameRead f j :=
  match i, h with
  | 0, h | 1, h | 2, h | 3, h | 4, h | 5, h | 6, h | 7, h | 8, h => by
    cases h
    unfold frameRead
    split <;> first | rfl | exact absurd rfl hij

@[simp] theorem frameBytes_length (f : Frame) : (frameBytes f).length = 9 := rfl

theorem commandFrames_mem (f : Frame) :
    f ∈ commandFrames ↔ f = readCo2Frame ∨ f = calZeroFrame ∨ f = acalOnFrame ∨ f = acalOffFrame := by
  simp [commandFrames]

theorem hasResponseHeader_iff (f : Frame) : hasResponseHeader f = true ↔ f.b0 = 0xFF ∧ f.b1 = 0x86 := by
  simp [hasResponseHeader, startByte, opcReadCo2]

/-! ### The checksum and the checks (40_checksum.md, 42_decode.md) -/

/-- The checksum reads bytes 1 to 7 and no other (R67). -/
theorem cksum_congr {f g : Frame} (h : byteSum f = byteSum g) : cksum f = cksum g := by
  simp [cksum, sumMod, h]

/-- A frame carries the right checksum exactly when its true sum and byte 8 add to a multiple of 256. -/
theorem ckValid_iff_sum (f : Frame) : ckValid f = true ↔ (byteSum f + f.b8.toNat) % 256 = 0 := by
  have h8 := f.b8.isLt
  simp only [ckValid, cksum, sumMod, beq_iff_eq, ← BitVec.toNat_inj, BitVec.toNat_ofNat]
  omega

theorem ckValid_iff (f : Frame) : ckValid f = true ↔ f.b8 = cksum f := by simp [ckValid]

theorem lengthOk_iff (n : BitVec 4) : lengthOk n = true ↔ n = 9 := by
  simp [lengthOk, frameLen, ← BitVec.toNat_inj]

theorem headerOk_iff (f : Frame) : headerOk f = true ↔ f.b0 = 0xFF ∧ f.b1 = 0x86 := by
  simp [headerOk, startByte, opcReadCo2]

/-- What a PARSE can do (R94): exactly one of four writes of its group, with the condition of each. -/
theorem parseInto_cases (n : BitVec 4) (f : Frame) (s : State) :
    (n ≠ 9 ∧ parseInto n f s = s.writeParse stLen 0 n Frame.zero) ∨
    (n = 9 ∧ ¬(f.b0 = 0xFF ∧ f.b1 = 0x86) ∧ parseInto n f s = s.writeParse stHdr 0 n f) ∨
    (n = 9 ∧ (f.b0 = 0xFF ∧ f.b1 = 0x86) ∧ f.b8 ≠ cksum f ∧ parseInto n f s = s.writeParse stCks 0 n f) ∨
    (n = 9 ∧ (f.b0 = 0xFF ∧ f.b1 = 0x86) ∧ f.b8 = cksum f ∧ parseInto n f s = s.writeParse stOk (ppmOf f) n f) := by
  unfold parseInto raise
  split
  · rename_i h1
    split
    · rename_i h2
      split
      · rename_i h3
        exact .inr (.inr (.inr ⟨(lengthOk_iff n).1 h1, (headerOk_iff f).1 h2, (ckValid_iff f).1 h3, rfl⟩))
      · rename_i h3
        exact .inr (.inr (.inl ⟨(lengthOk_iff n).1 h1, (headerOk_iff f).1 h2, mt (ckValid_iff f).2 h3, rfl⟩))
    · rename_i h2
      exact .inr (.inl ⟨(lengthOk_iff n).1 h1, mt (headerOk_iff f).2 h2, rfl⟩)
  · rename_i h1
    exact .inl ⟨mt (lengthOk_iff n).2 h1, rfl⟩

/-- A PARSE writes its group with values that do not depend on the state (R16, R25). -/
theorem parseInto_eq_writeParse (n : BitVec 4) (f : Frame) :
    ∃ st p e, ∀ s : State, parseInto n f s = s.writeParse st p n e := by
  unfold parseInto raise
  split
  · split
    · split <;> exact ⟨_, _, _, fun _ => rfl⟩
    · exact ⟨_, _, _, fun _ => rfl⟩
  · exact ⟨_, _, _, fun _ => rfl⟩

theorem ppmOf_toNat (f : Frame) : (ppmOf f).toNat = f.b2.toNat * 256 + f.b3.toNat := by
  have h2 := f.b2.isLt
  have h3 := f.b3.isLt
  simp only [ppmOf, BitVec.toNat_ofNat]
  omega

/-! ### Building (41_encode.md) -/

theorem build_readCo2 : build opcReadCo2 0x00 = readCo2Frame := by decide

theorem build_calZero : build opcCalZero 0x00 = calZeroFrame := by decide

theorem build_acal (e : Bool) : build opcAcal (acalPayload e) = if e then acalOnFrame else acalOffFrame := by
  cases e <;> decide

theorem build_mem (e : Bool) :
    build opcReadCo2 0x00 ∈ commandFrames ∧ build opcCalZero 0x00 ∈ commandFrames ∧
      build opcAcal (acalPayload e) ∈ commandFrames := by
  cases e <;> decide

/-! ### The transport (43_transactions.md) -/

theorem transmit_ioError {s : State} (k : State → Outcome) (h : s.transport.writeAnswer = .ioError) :
    transmit s k = .next (s.handOver.withResult (.error .ioError)) := by
  simp [transmit, h]

theorem transmit_full {s : State} (k : State → Outcome) (h : s.transport.writeAnswer = .count 9) :
    transmit s k = k s.handOver := by
  simp [transmit, h, frameLen]

theorem transmit_partial {s : State} {n : Fin 10} (k : State → Outcome) (h : s.transport.writeAnswer = .count n)
    (hn : n ≠ 9) : transmit s k = .fault .partialWrite := by
  have hn' : n.val ≠ frameLen := fun e => hn (Fin.ext e)
  simp [transmit, h, hn']

/-- What handing `TXF` over can do: IOError, stuck on a partial write, or go on. -/
theorem transmit_cases (s : State) (k : State → Outcome) :
    (s.transport.writeAnswer = .ioError ∧ transmit s k = .next (s.handOver.withResult (.error .ioError))) ∨
    (s.transport.writeAnswer = .count 9 ∧ transmit s k = k s.handOver) ∨
    (∃ n, n ≠ 9 ∧ s.transport.writeAnswer = .count n ∧ transmit s k = .fault .partialWrite) := by
  cases h : s.transport.writeAnswer with
  | ioError => exact .inl ⟨rfl, transmit_ioError k h⟩
  | count n =>
    by_cases hn : n = 9
    · subst hn
      exact .inr (.inl ⟨rfl, transmit_full k h⟩)
    · exact .inr (.inr ⟨n, hn, rfl, transmit_partial k h hn⟩)

/-- What a transaction body does: nothing without an open transport. -/
theorem inSession_cases (s : State) (body : Outcome) :
    (s.transport.session = .opened ∧ inSession s body = body) ∨
    (s.transport.session ≠ .opened ∧ inSession s body = .refused .transportNotOpen) := by
  by_cases h : s.transport.session = .opened <;> simp [inSession, h]

theorem receive_ioError {s : State} (h : s.transport.readAnswer = .ioError) :
    receive s = .next (s.collect.withResult (.error .ioError)) := by
  simp [receive, h]

theorem receive_count {s : State} {n : Fin 10} {f : Frame} (h : s.transport.readAnswer = .count n f) :
    receive s = .next ((parseInto (dlenOf n) f s.collect).withResult (parseResult (parseInto (dlenOf n) f s.collect))) := by
  simp [receive, h]

/-- What a `read` and what follows it can do: IOError without a PARSE, or a PARSE of what was read. -/
theorem receive_cases (s : State) :
    (s.transport.readAnswer = .ioError ∧ receive s = .next (s.collect.withResult (.error .ioError))) ∨
    (∃ n f, s.transport.readAnswer = .count n f ∧
      receive s = .next ((parseInto (dlenOf n) f s.collect).withResult (parseResult (parseInto (dlenOf n) f s.collect)))) := by
  cases h : s.transport.readAnswer with
  | ioError => exact .inl ⟨rfl, receive_ioError h⟩
  | count n f => exact .inr ⟨n, f, rfl, receive_count h⟩

end Sys2Proof.Machine
end

