-- ==== Sys2Proof/Laws/Exec.lean ====
section
/-! SUPPORT. What an instruction and what a step can do, said once, as inversion lemmas that later proofs cite. -/

namespace Sys2Proof.Machine

/-- What a transaction that answers a next state did: a command frame was built and handed over, and then it ended with
IOError, or (CALZERO, SETACAL) with success, or (READCO2) read, and ended with IOError or a PARSE of what was read. -/
inductive Transacted (s : State) : State → Prop where
  | writeFailed (f : Frame) (hf : f ∈ commandFrames) :
      Transacted s ((s.writeBuild f).handOver.withResult (.error .ioError))
  | sent (f : Frame) (hf : f ∈ commandFrames) : Transacted s ((s.writeBuild f).handOver.withResult .success)
  | readFailed : Transacted s ((s.writeBuild readCo2Frame).handOver.collect.withResult (.error .ioError))
  | parsed (n : Fin 10) (f : Frame)
      (hr : (s.writeBuild readCo2Frame).handOver.transport.readAnswer = .count n f) :
      Transacted s ((parseInto (dlenOf n) f (s.writeBuild readCo2Frame).handOver.collect).withResult
        (parseResult (parseInto (dlenOf n) f (s.writeBuild readCo2Frame).handOver.collect)))

/-- READCO2 in an open session: the read-CO2 frame is built and handed over, and then received. -/
theorem execReadco2_opened {s : State} (h : s.transport.session = .opened) :
    execReadco2 s = transmit (s.writeBuild readCo2Frame) receive := by
  rw [execReadco2, buildInto, build_readCo2, inSession, if_pos h]

theorem execCalzero_opened {s : State} (h : s.transport.session = .opened) :
    execCalzero s = transmit (s.writeBuild calZeroFrame) fun t => .next (t.withResult .success) := by
  rw [execCalzero, buildInto, build_calZero, inSession, if_pos h]

theorem execSetacal_opened (e : Bool) {s : State} (h : s.transport.session = .opened) :
    execSetacal e s =
      transmit (s.writeBuild (if e then acalOnFrame else acalOffFrame)) fun t => .next (t.withResult .success) := by
  rw [execSetacal, buildInto, build_acal, inSession, if_pos h]

theorem execReadco2_cases {s t : State} (h : execReadco2 s = .next t) : Transacted s t := by
  unfold execReadco2 buildInto at h
  rw [build_readCo2] at h
  obtain ⟨_, hs⟩ | ⟨_, hs⟩ := inSession_cases s (transmit (s.writeBuild readCo2Frame) receive) <;> rw [hs] at h
  · obtain ⟨_, ht⟩ | ⟨_, ht⟩ | ⟨_, _, _, ht⟩ := transmit_cases (s.writeBuild readCo2Frame) receive <;> rw [ht] at h
    · cases h
      exact .writeFailed _ (by decide)
    · obtain ⟨_, hr⟩ | ⟨n, f, hn, hr⟩ := receive_cases (s.writeBuild readCo2Frame).handOver <;> rw [hr] at h <;> cases h
      · exact .readFailed
      · exact .parsed n f hn
    · cases h
  · cases h

theorem execSend_cases {s t : State} {f : Frame} (hf : f ∈ commandFrames)
    (h : inSession s (transmit (s.writeBuild f) fun u => .next (u.withResult .success)) = .next t) : Transacted s t := by
  obtain ⟨_, hs⟩ | ⟨_, hs⟩ :=
    inSession_cases s (transmit (s.writeBuild f) fun u => .next (u.withResult .success)) <;> rw [hs] at h
  · obtain ⟨_, ht⟩ | ⟨_, ht⟩ | ⟨_, _, _, ht⟩ :=
      transmit_cases (s.writeBuild f) fun u => .next (u.withResult .success) <;> rw [ht] at h <;> cases h
    · exact .writeFailed f hf
    · exact .sent f hf
  · cases h

/-- What an instruction that answers a next state did. -/
inductive Executed (i : Instr) (s : State) : State → Prop where
  | build (f : Frame) (hf : f ∈ commandFrames) (hi : groupOf i = some .build) : Executed i s (s.writeBuild f)
  | check (f : Frame) (hi : groupOf i = some .check) : Executed i s (s.writeCheck (cksum f) (ckValid f))
  | parse (n : BitVec 4) (f : Frame) (hi : groupOf i = some .parse) : Executed i s (parseInto n f s)
  | transaction (t : State) (hi : groupOf i = none) (h : Transacted s t) : Executed i s t

theorem exec_cases {i : Instr} {s t : State} (h : exec i s = .next t) : Executed i s t := by
  cases i with
  | bldrd o => cases h; exact .build _ (build_mem true).1 rfl
  | bldzero o => cases h; exact .build _ (build_mem true).2.1 rfl
  | bldacal o => cases h; exact .build _ (build_mem o.en).2.2 rfl
  | cksum o => cases h; exact .check _ rfl
  | parse o => cases h; exact .parse _ _ rfl
  | reqReserved5 o => cases h
  | reqReserved67 op o => cases h
  | cmdReadCo2 => cases h; exact .build _ (by decide) rfl
  | cmdCalZero => cases h; exact .build _ (by decide) rfl
  | cmdAcalOn => cases h; exact .build _ (by decide) rfl
  | cmdAcalOff => cases h; exact .build _ (by decide) rfl
  | rspCo2 f => cases h; exact .parse _ _ rfl
  | readco2 => exact .transaction _ rfl (execReadco2_cases h)
  | calzero => exact .transaction _ rfl (execSend_cases (build_mem true).2.1 h)
  | setacal e => exact .transaction _ rfl (execSend_cases (build_mem e).2.2 h)

/-- What a step that answers a next state did: it took the first event off the agenda and ran it. -/
inductive Stepped (s : State) : State → Prop where
  | request (r : Request) (rest : Agenda) (i : Instr) (t : State) (ha : s.agenda.next = some (.request r, rest))
      (hd : decode r = .ok i) (h : Executed i (s.withAgenda rest) t) : Stepped s t
  | reset (rest : Agenda) (ha : s.agenda.next = some (.reset, rest)) : Stepped s (s.withAgenda rest).resetRegisters
  | opened (rest : Agenda) (v : Session) (r : CallResult) (ha : s.agenda.next = some (.openTransport, rest)) :
      Stepped s (((s.withAgenda rest).withTransport (s.transport.afterOpen v)).withResult r)
  | closed (rest : Agenda) (v : Session) (r : CallResult) (ha : s.agenda.next = some (.closeTransport, rest)) :
      Stepped s (((s.withAgenda rest).withTransport (s.transport.afterClose v)).withResult r)

theorem step_next {s : State} {e : Event} {rest : Agenda} (h : s.agenda.next = some (e, rest)) :
    step s = runEvent e (s.withAgenda rest) := by simp [step, h]

theorem step_ended {s : State} (h : s.agenda.next = none) : step s = .refused .nothingPresented := by simp [step, h]

theorem step_cases {s t : State} (h : step s = .next t) : Stepped s t := by
  rcases ha : s.agenda.next with _ | ⟨e, rest⟩
  · rw [step_ended ha] at h
    cases h
  · rw [step_next ha] at h
    cases e with
    | request r =>
      simp only [runEvent, runRequest] at h
      split at h
      · rename_i i hd
        exact .request r rest i t ha hd (exec_cases h)
      · cases h
    | reset =>
      cases h
      exact .reset rest ha
    | openTransport =>
      simp only [runEvent, runOpen] at h
      split at h
      · split at h <;> cases h <;> exact .opened rest _ _ ha
      · cases h
    | closeTransport =>
      simp only [runEvent, runClose] at h
      split at h
      · split at h <;> cases h <;> exact .closed rest _ _ ha
      · cases h

end Sys2Proof.Machine
end

