-- ==== Sys2Proof/Laws/PerInstr.lean ====
section
/-! SUPPORT. Per instruction: the encoded form of a well-formed instruction falls under its own row of spec/opcode_table.json. -/

namespace Sys2Proof

/-- A frame as a number: the sum of its bytes at their weights (R12). -/
theorem Frame.toBits_toNat (f : Frame) : f.toBits.toNat =
    f.b0.toNat * 2 ^ 64 + f.b1.toNat * 2 ^ 56 + f.b2.toNat * 2 ^ 48 + f.b3.toNat * 2 ^ 40 + f.b4.toNat * 2 ^ 32 +
      f.b5.toNat * 2 ^ 24 + f.b6.toNat * 2 ^ 16 + f.b7.toNat * 2 ^ 8 + f.b8.toNat := by
  have append : ∀ (x : Nat) (b : Byte), x <<< 8 ||| b.toNat = x * 256 + b.toNat := by
    intro x b
    rw [Nat.shiftLeft_eq, Nat.mul_comm, ← Nat.two_pow_add_eq_or_of_lt b.isLt]
  simp only [Frame.toBits, BitVec.toNat_append, append]
  omega

/-- The match/mask pair of the row RSP.CO2 reads the top sixteen bits (R52). -/
theorem rspCo2_mask_iff (v : BitVec 72) :
    v &&& 0xFFFF00000000000000#72 = 0xFF8600000000000000#72 ↔ v.toNat / 2 ^ 56 = 0xFF86 := by
  have hmask : v &&& 0xFFFF00000000000000#72 = (v.extractLsb' 56 16 ++ 0#56 : BitVec 72) := by
    apply BitVec.eq_of_getLsbD_eq
    intro i hi
    have hbit : (0xFFFF00000000000000#72).getLsbD i = decide (56 ≤ i) := by
      clear v
      revert i
      decide
    simp only [BitVec.getLsbD_and, BitVec.getLsbD_append, BitVec.getLsbD_extractLsb', hbit]
    by_cases h : i < 56
    · simp [h]
    · have hlow : i - 56 < 16 := by omega
      simp [h, hlow, show 56 + (i - 56) = i by omega]
      omega
  have hmatch : (0xFF8600000000000000#72) = (0xFF86#16 ++ 0#56 : BitVec 72) := by decide
  have hv := v.isLt
  rw [hmask, hmatch, ← BitVec.toNat_inj]
  simp only [BitVec.toNat_append, BitVec.extractLsb'_toNat, Nat.shiftRight_eq_div_pow, Nat.shiftLeft_eq,
    BitVec.toNat_ofNat, Nat.or_zero, Nat.zero_mod]
  simp
  omega

end Sys2Proof

namespace Sys2Proof.Laws.Row

/-- What the instruction's row of the opcode table asks of an encoded form: the match/mask pair of a REQ word or of a
frame's 72-bit value, or the name of a transaction. -/
def Matches : Instr → Request → Prop
  | .bldrd _, .port w _ _ => w &&& 0x7 = 0x0
  | .bldzero _, .port w _ _ => w &&& 0x7 = 0x1
  | .bldacal _, .port w _ _ => w &&& 0x7 = 0x2
  | .cksum _, .port w _ _ => w &&& 0x7 = 0x3
  | .parse _, .port w _ _ => w &&& 0x7 = 0x4
  | .reqReserved5 _, .port w _ _ => w &&& 0x7 = 0x5
  | .reqReserved67 _ _, .port w _ _ => w &&& 0x6 = 0x6
  | .cmdReadCo2, .command f => f.toBits = 0xFF0186000000000079
  | .cmdCalZero, .command f => f.toBits = 0xFF0187000000000078
  | .cmdAcalOn, .command f => f.toBits = 0xFF0179A000000000E6
  | .cmdAcalOff, .command f => f.toBits = 0xFF0179000000000086
  | .rspCo2 _, .received f => f.toBits &&& 0xFFFF00000000000000#72 = 0xFF8600000000000000#72
  | .readco2, .transaction t => t = .readco2
  | .calzero, .transaction t => t = .calzero
  | .setacal e, .transaction t => t = .setacal e
  | _, _ => False

/-- The encoded form of a well-formed instruction falls under its row. -/
def Statement (i : Instr) : Prop := i.wellFormed = true → Matches i (encode i)

/-- The request word of an operation, masked to `OP`, is `OP` (R56, R58). -/
theorem reqWord_and (en : Bool) (op : BitVec 3) : reqWord en op &&& 0x7 = op.setWidth 4 := by
  revert en op
  decide

theorem bldrd (o : Operands) : Statement (.bldrd o) := fun _ => reqWord_and o.en 0

theorem bldzero (o : Operands) : Statement (.bldzero o) := fun _ => reqWord_and o.en 1

theorem bldacal (o : Operands) : Statement (.bldacal o) := fun _ => reqWord_and o.en 2

theorem cksum (o : Operands) : Statement (.cksum o) := fun _ => reqWord_and o.en 3

theorem parse (o : Operands) : Statement (.parse o) := fun _ => reqWord_and o.en 4

theorem reqReserved5 (o : Operands) : Statement (.reqReserved5 o) := fun _ => reqWord_and o.en 5

theorem reqReserved67 (op : BitVec 3) (o : Operands) : Statement (.reqReserved67 op o) := by
  intro h
  have key : ∀ (en : Bool) (op : BitVec 3), (op == 6 || op == 7) = true → reqWord en op &&& 0x6 = 0x6 := by decide
  exact key o.en op h

theorem cmdReadCo2 : Statement .cmdReadCo2 := fun _ => rfl

theorem cmdCalZero : Statement .cmdCalZero := fun _ => rfl

theorem cmdAcalOn : Statement .cmdAcalOn := fun _ => rfl

theorem cmdAcalOff : Statement .cmdAcalOff := fun _ => rfl

theorem rspCo2 (f : Frame) : Statement (.rspCo2 f) := by
  intro h
  obtain ⟨h0, h1⟩ := (Machine.hasResponseHeader_iff f).1 h
  refine (rspCo2_mask_iff f.toBits).2 ?_
  rw [Frame.toBits_toNat, h0, h1]
  simp
  omega

theorem readco2 : Statement .readco2 := fun _ => rfl

theorem calzero : Statement .calzero := fun _ => rfl

theorem setacal (e : Bool) : Statement (.setacal e) := fun _ => rfl

end Sys2Proof.Laws.Row
end

