-- ==== Sys2Proof/Laws/Run.lean ====
section
/-! SUPPORT. Agendas and runs: what comes next, what is left, and that no event reads the agenda. -/

namespace Sys2Proof.Machine

/-! ### Agendas -/

@[simp] theorem Agenda.next_listed (e : Event) (l : List Event) (more : Option Nat) :
    Agenda.next ⟨e :: l, more⟩ = some (e, ⟨l, more⟩) := rfl

@[simp] theorem Agenda.next_free (k : Nat) : Agenda.next ⟨[], some k⟩ = some (Config.freeEvent k, ⟨[], some (k + 1)⟩) := rfl

@[simp] theorem Agenda.next_empty : Agenda.next ⟨[], none⟩ = none := rfl

@[simp] theorem Agenda.drop_zero (a : Agenda) : a.drop 0 = a := by
  obtain ⟨l, _ | k⟩ := a <;> simp [Agenda.drop]

/-- What comes after the first `n` events: the event at position `n`, and what is left after `n + 1`; nothing past the end. -/
theorem Agenda.next_drop (a : Agenda) (n : Nat) :
    (a.drop n).next = (eventAt a.event a.length n).map fun e => (e, a.drop (n + 1)) := by
  obtain ⟨l, more⟩ := a
  by_cases h : n < l.length
  · have hd := List.drop_eq_getElem_cons h
    have hn : n - l.length = 0 := by omega
    have hn' : n + 1 - l.length = 0 := by omega
    cases more <;> simp only [Agenda.drop, Agenda.event, Agenda.length, eventAt, hn, hn', if_pos h, List.getElem?_eq_getElem h,
      Option.getD_some, Option.map_some, Option.map_none] <;> rw [hd] <;> rfl
  · have hd : l.drop n = [] := List.drop_eq_nil_of_le (by omega)
    have hd' : l.drop (n + 1) = [] := List.drop_eq_nil_of_le (by omega)
    cases more with
    | none => simp [Agenda.drop, Agenda.length, eventAt, hd, h]
    | some k =>
      have hn : k + (n + 1 - l.length) = k + (n - l.length) + 1 := by omega
      simp [Agenda.drop, Agenda.event, Agenda.length, eventAt, hd, hd', h, hn]

/-! ### No event reads the agenda -/

@[simp] theorem onNext_next (g : State → State) (t : State) : onNext g (.next t) = .next (g t) := rfl

@[simp] theorem onNext_fault (g : State → State) (f : Fault) : onNext g (.fault f) = .fault f := rfl

@[simp] theorem onNext_refused (g : State → State) (r : Refusal) : onNext g (.refused r) = .refused r := rfl

theorem parseInto_withAgenda (n : BitVec 4) (f : Frame) (s : State) (a : Agenda) :
    parseInto n f (s.withAgenda a) = (parseInto n f s).withAgenda a := by
  unfold parseInto
  repeat' split
  all_goals rfl

theorem receive_withAgenda (s : State) (a : Agenda) : receive (s.withAgenda a) = onNext (·.withAgenda a) (receive s) := by
  obtain ⟨hr, h⟩ | ⟨n, f, hr, h⟩ := receive_cases s <;> rw [h]
  · rw [receive_ioError (s := s.withAgenda a) hr]
    rfl
  · rw [receive_count (s := s.withAgenda a) hr, show (s.withAgenda a).collect = s.collect.withAgenda a from rfl,
      parseInto_withAgenda]
    rfl

/-- A transaction does not read the agenda, if what follows its `write` does not. -/
theorem inSession_transmit_withAgenda (f : Frame) (k : State → Outcome) (s : State) (a : Agenda)
    (hk : ∀ t, k (t.withAgenda a) = onNext (·.withAgenda a) (k t)) :
    inSession (s.withAgenda a) (transmit ((s.withAgenda a).writeBuild f) k) =
      onNext (·.withAgenda a) (inSession s (transmit (s.writeBuild f) k)) := by
  have hs' : (s.withAgenda a).transport.session = s.transport.session := rfl
  have hw : ((s.withAgenda a).writeBuild f).transport.writeAnswer = (s.writeBuild f).transport.writeAnswer := rfl
  unfold inSession transmit
  rw [hs', hw]
  by_cases hs : s.transport.session = .opened
  · rw [if_pos hs, if_pos hs]
    cases (s.writeBuild f).transport.writeAnswer with
    | ioError => rfl
    | count n =>
      by_cases hn : n.val = frameLen
      · simp only [if_pos hn]
        exact hk (s.writeBuild f).handOver
      · simp only [if_neg hn, onNext_fault]
  · rw [if_neg hs, if_neg hs, onNext_refused]

theorem exec_withAgenda (i : Instr) (s : State) (a : Agenda) :
    exec i (s.withAgenda a) = onNext (·.withAgenda a) (exec i s) := by
  cases i with
  | parse o => exact congrArg Host.Outcome.next (parseInto_withAgenda o.dlen o.din s a)
  | rspCo2 f => exact congrArg Host.Outcome.next (parseInto_withAgenda 9 f s a)
  | readco2 => exact inSession_transmit_withAgenda _ _ s a fun t => receive_withAgenda t a
  | calzero => exact inSession_transmit_withAgenda _ _ s a fun _ => rfl
  | setacal e => exact inSession_transmit_withAgenda _ _ s a fun _ => rfl
  | _ => rfl

theorem runEvent_withAgenda (e : Event) (s : State) (a : Agenda) :
    runEvent e (s.withAgenda a) = onNext (·.withAgenda a) (runEvent e s) := by
  cases e with
  | request r =>
    simp only [runEvent, runRequest]
    cases decode r with
    | ok i => exact exec_withAgenda i s a
    | reject _ => rfl
  | reset => rfl
  | openTransport =>
    show runOpen (s.withAgenda a) = onNext _ (runOpen s)
    have hs' : (s.withAgenda a).transport = s.transport := rfl
    unfold runOpen
    rw [hs']
    by_cases hs : s.transport.session = .closed
    · rw [if_pos hs, if_pos hs]
      cases s.transport.openAnswer <;> rfl
    · rw [if_neg hs, if_neg hs, onNext_refused]
  | closeTransport =>
    show runClose (s.withAgenda a) = onNext _ (runClose s)
    have hs' : (s.withAgenda a).transport = s.transport := rfl
    unfold runClose
    rw [hs']
    by_cases hs : s.transport.session = .opened
    · rw [if_pos hs, if_pos hs]
      cases s.transport.closeAnswer <;> rfl
    · rw [if_neg hs, if_neg hs, onNext_refused]

end Sys2Proof.Machine
end

