-- ==== Sys2Proof/Tests/Slice0.lean ====
section
/-! SUPPORT. The model's own tests: the WellFormed smoke, words written out from the spec's encodings, small steps with the
vectors of spec/95_test_vectors.md, and for every obligation with hypotheses a state and operands that meet them. -/

namespace Sys2Proof.Tests

open Sys2Proof.Machine

/-! ### Helpers -/

/-- The next state, where there is one. -/
def nextOf : Outcome → Option State
  | .next t => some t
  | .fault _ => none
  | .refused _ => none

/-- The refusal, where there is one. -/
def refusalOf : Outcome → Option Refusal
  | .refused r => some r
  | .next _ => none
  | .fault _ => none

/-- The fault, where there is one. -/
def faultOf : Outcome → Option Fault
  | .fault f => some f
  | .next _ => none
  | .refused _ => none

/-- The reset state with a session and canned answers of the transport (43_transactions.md R103). -/
def fake (v : Session) (w : List WriteAnswer) (r : List ReadAnswer) : State :=
  State.reset.withTransport { Transport.initial with session := v, writes := w, reads := r }

/-- The reset state with a session and canned answers to `open` and `close`. -/
def session (v : Session) (o : List OpenAnswer) (c : List CloseAnswer) : State :=
  State.reset.withTransport { Transport.initial with session := v, opens := o, closes := c }

/-- The next state of a request presented by its textual call (30_encoding.md R65). -/
def after (c : Call) : Option State := nextOf (step (State.reset.present c.request))

/-- Vector V1 of 95_test_vectors.md: a response with 800 ppm. -/
def v1 : Frame := ⟨0xFF, 0x86, 0x03, 0x20, 0x00, 0x00, 0x00, 0x00, 0x57⟩

/-- Vector V6: a response with 410 ppm and reserved bytes that are not zero. -/
def v6 : Frame := ⟨0xFF, 0x86, 0x01, 0x9A, 0x44, 0x12, 0x00, 0x07, 0x82⟩

/-- Vector V1 with its first byte wrong (vector E8). -/
def e8 : Frame := ⟨0x00, 0x86, 0x03, 0x20, 0x00, 0x00, 0x00, 0x00, 0x57⟩

/-- Vector V1 with its checksum one too high (vector E16). -/
def e16 : Frame := ⟨0xFF, 0x86, 0x03, 0x20, 0x00, 0x00, 0x00, 0x00, 0x58⟩

/-- Operands with every field unlike its reset value. -/
def someOperands : Operands := ⟨true, v6, 15⟩

/-! ### WellFormed: one ill-formed term for each check -/

theorem test_wf_rspCo2_start : (Instr.rspCo2 e8).wellFormed = false := by decide

theorem test_wf_rspCo2_echo : (Instr.rspCo2 ⟨0xFF, 0x01, 0, 0, 0, 0, 0, 0, 0⟩).wellFormed = false := by decide

theorem test_wf_rspCo2_any_checksum : (Instr.rspCo2 e16).wellFormed = true := by decide

theorem test_wf_reserved67 :
    (Instr.reqReserved67 5 someOperands).wellFormed = false ∧ (Instr.reqReserved67 0 someOperands).wellFormed = false := by
  decide

/-! ### Decoding: the words of 30_encoding.md R49, R52, R57, R65, bit by bit -/

theorem test_decode_bldrd : decodeTableWord 4 0b0000 = some (.bldrd ⟨false, Frame.zero, 0⟩) := by decide

theorem test_decode_bldzero : decodeTableWord 4 0b0001 = some (.bldzero ⟨false, Frame.zero, 0⟩) := by decide

theorem test_decode_bldacal_enable : decodeTableWord 8 0b1010 = some (.bldacal ⟨true, Frame.zero, 0⟩) := by decide

theorem test_decode_bldacal_disable : decodeTableWord 8 0b0010 = some (.bldacal ⟨false, Frame.zero, 0⟩) := by decide

theorem test_decode_cksum : decode (.port 0b1011 v1 3) = .ok (.cksum ⟨true, v1, 3⟩) := by decide

theorem test_decode_parse : decode (.port 0b0100 v1 9) = .ok (.parse ⟨false, v1, 9⟩) := by decide

theorem test_decode_reserved5 : decodeTableWord 8 0b0101 = some (.reqReserved5 ⟨false, Frame.zero, 0⟩) := by decide

theorem test_decode_reserved6 : decodeTableWord 8 0b1110 = some (.reqReserved67 6 ⟨true, Frame.zero, 0⟩) := by decide

theorem test_decode_reserved7 : decodeTableWord 8 0b0111 = some (.reqReserved67 7 ⟨false, Frame.zero, 0⟩) := by decide

theorem test_decode_cmdReadCo2 : decodeTableWord 72 0xFF0186000000000079 = some .cmdReadCo2 := by decide

theorem test_decode_cmdCalZero : decodeTableWord 72 0xFF0187000000000078 = some .cmdCalZero := by decide

theorem test_decode_cmdAcalOn : decodeTableWord 72 0xFF0179A000000000E6 = some .cmdAcalOn := by decide

theorem test_decode_cmdAcalOff : decodeTableWord 72 0xFF0179000000000086 = some .cmdAcalOff := by decide

theorem test_decode_rspCo2 : decodeTableWord 72 0xFF86019A4412000782 = some (.rspCo2 v6) := by decide

theorem test_decode_readco2 : decode Call.readco2.request = .ok .readco2 := by decide

theorem test_decode_calzero : decode Call.calzero.request = .ok .calzero := by decide

theorem test_decode_setacal : decode (Call.setacal false).request = .ok (.setacal false) := by decide

/-- A command frame with another opcode (30_encoding.md R61) is none of the table's. -/
theorem test_decode_unknown_command :
    decode (.command ⟨0xFF, 0x01, 0x99, 0, 0, 0, 0, 0, 0x66⟩) = .reject .notACommandFrame := by decide

/-- A reply to another command (R60) is handed to PARSE. -/
theorem test_decode_other_reply :
    decode (.received ⟨0xFF, 0x87, 0, 0, 0, 0, 0, 0, 0x79⟩) =
      .ok (.parse ⟨false, ⟨0xFF, 0x87, 0, 0, 0, 0, 0, 0, 0x79⟩, 9⟩) := by decide

/-- A word placed for the fetch is what the step runs. -/
theorem test_withFetchWord : (nextOf (step (State.reset.withFetchWord 8 0xA))).map (·.txf) =
    some ⟨0xFF, 0x01, 0x79, 0xA0, 0, 0, 0, 0, 0xE6⟩ := by decide

/-! ### Steps: vectors of 95_test_vectors.md -/

/-- B1 -/
theorem test_bldrd : (after .bldrd).map (fun t => (t.txf, t.txv)) =
    some (⟨0xFF, 0x01, 0x86, 0, 0, 0, 0, 0, 0x79⟩, true) := by decide

/-- B2 -/
theorem test_bldzero : (after .bldzero).map (fun t => (t.txf, t.txv)) =
    some (⟨0xFF, 0x01, 0x87, 0, 0, 0, 0, 0, 0x78⟩, true) := by decide

/-- B4 -/
theorem test_bldacal_disable : (after (.bldacal false)).map (fun t => (t.txf, t.txv)) =
    some (⟨0xFF, 0x01, 0x79, 0, 0, 0, 0, 0, 0x86⟩, true) := by decide

/-- K8: a zero sum -/
theorem test_cksum_zero_sum : (after (.cksum ⟨0xFF, 0x86, 0x7A, 0, 0, 0, 0, 0, 0⟩)).map (fun t => (t.ck, t.ckok)) =
    some (0x00, true) := by decide

/-- K10: the largest sum, and a wrong byte 8 -/
theorem test_cksum_largest_sum :
    (after (.cksum ⟨0xFF, 0xFF, 0xFF, 0xFF, 0xFF, 0xFF, 0xFF, 0xFF, 0xFF⟩)).map (fun t => (t.ck, t.ckok)) =
      some (0x07, false) := by decide

/-- V6: reserved bytes that are not zero -/
theorem test_parse_reading : (after (.parse 9 (frameBytes v6))).map (fun t => (t.st, t.ppm, t.elen, t.eraw)) =
    some (stOk, 410, 9, v6) := by decide

/-- E1: a short read -/
theorem test_parse_short : (after (.parse 5 [0xFF, 0x86, 0x03, 0x20, 0x00])).map (fun t => (t.st, t.ppm, t.elen, t.eraw)) =
    some (stLen, 0, 5, Frame.zero) := by decide

/-- R62 -/
theorem test_reserved5 : refusalOf (step (State.reset.withFetchWord 8 0x5)) = some .reservedRequest := by decide

/-- R62 -/
theorem test_reserved67 : refusalOf (step (State.reset.withFetchWord 8 0xF)) = some .reservedRequest := by decide

theorem test_cmdReadCo2 : (nextOf (step (State.reset.withFetchWord 72 0xFF0186000000000079))).map (·.txf.b8) = some 0x79 := by
  decide

theorem test_cmdCalZero : (nextOf (step (State.reset.withFetchWord 72 0xFF0187000000000078))).map (·.txf.b8) = some 0x78 := by
  decide

theorem test_cmdAcalOn : (nextOf (step (State.reset.withFetchWord 72 0xFF0179A000000000E6))).map (·.txf.b8) = some 0xE6 := by
  decide

theorem test_cmdAcalOff : (nextOf (step (State.reset.withFetchWord 72 0xFF0179000000000086))).map (·.txf.b8) = some 0x86 := by
  decide

/-- V1 as a received frame -/
theorem test_rspCo2 : (nextOf (step (State.reset.withFetchWord 72 0xFF8603200000000057))).map (fun t => (t.st, t.ppm)) =
    some (stOk, 800) := by decide

/-- E16 as a received frame -/
theorem test_rspCo2_checksum :
    (nextOf (step (State.reset.withFetchWord 72 0xFF8603200000000058))).map (fun t => (t.st, t.ppm)) = some (stCks, 0) := by
  decide

/-- P4, its first transaction -/
theorem test_readco2 : (nextOf (exec .readco2 (fake .opened [.count 9] [.count 9 v6]))).map (·.result) =
    some (some (.reading 410)) := by decide

/-- P4, its second transaction: nothing was read -/
theorem test_readco2_nothing_read :
    (nextOf (exec .readco2 (fake .opened [.count 9] [.count 0 v1]))).map (fun t => (t.st, t.result)) =
      some (stLen, some (.error (.protocol (.length 0)))) := by decide

/-- R99: the bytes handed over, in index order -/
theorem test_calzero :
    (nextOf (exec .calzero (fake .opened [.count 9] []))).map (fun t => (t.transport.handed, t.result)) =
      some ([0xFF, 0x01, 0x87, 0, 0, 0, 0, 0, 0x78], some .success) := by decide

/-- R100 -/
theorem test_setacal_enable : (nextOf (exec (.setacal true) (fake .opened [.count 9] []))).map (·.transport.handed) =
    some [0xFF, 0x01, 0x79, 0xA0, 0, 0, 0, 0, 0xE6] := by decide

/-- R102: a write that fails -/
theorem test_setacal_ioError : (nextOf (exec (.setacal false) (fake .opened [.ioError] []))).map (·.result) =
    some (some (.error .ioError)) := by decide

/-! ### Witnesses: states and operands that meet the hypotheses of an obligation, named after it -/

theorem witness_ChecksumRoundTrip : frameWrite e16 8 (cksum e16) = some v1 := by decide

theorem witness_ChecksumDetectsSingleBitMutationsOfBytes1To8_first :
    ckValid v6 = true ∧ frameRead v6 1 = some 0x86 ∧
      frameWrite v6 1 (0x86 ^^^ (1#8 <<< 0)) = some ⟨0xFF, 0x87, 0x01, 0x9A, 0x44, 0x12, 0x00, 0x07, 0x82⟩ := by decide

theorem witness_ChecksumDetectsSingleBitMutationsOfBytes1To8_last :
    ckValid v6 = true ∧ frameRead v6 8 = some 0x82 ∧
      frameWrite v6 8 (0x82 ^^^ (1#8 <<< 7)) = some ⟨0xFF, 0x86, 0x01, 0x9A, 0x44, 0x12, 0x00, 0x07, 0x02⟩ := by decide

theorem witness_ChecksumDetectsSingleBitMutationsOfBytes1To8_start : frameWrite v1 0 0x00 = some e8 := by decide

theorem witness_ChecksumDetectsSingleBitMutationsOfBytes1To8_permutation :
    [v1.b1, v1.b2, v1.b3, v1.b4, v1.b5, v1.b6, v1.b7].Perm [v1.b1, v1.b3, v1.b2, v1.b4, v1.b5, v1.b6, v1.b7] := by decide

/-- Each clause of PARSE at the edges of its range: the counts 0, 8, 10 and 15, one wrong header byte each, a checksum one
too high, and an accepted frame. -/
theorem witness_ParseRunsItsThreeOrderedChecks :
    ((0 : BitVec 4) ≠ 9 ∧ (8 : BitVec 4) ≠ 9 ∧ (10 : BitVec 4) ≠ 9 ∧ (15 : BitVec 4) ≠ 9) ∧
    (e8.b0 ≠ 0xFF ∨ e8.b1 ≠ 0x86) ∧
    (readCo2Frame.b0 ≠ 0xFF ∨ readCo2Frame.b1 ≠ 0x86) ∧
    (e16.b0 = 0xFF ∧ e16.b1 = 0x86 ∧ e16.b8 ≠ cksum e16) ∧
    (v1.b0 = 0xFF ∧ v1.b1 = 0x86 ∧ v1.b8 = cksum v1) := by decide

/-- The count just below nine and the one just above it are wrong lengths, whatever the frame. -/
theorem witness_ParseRunsItsThreeOrderedChecks_length :
    (nextOf (exec (.parse ⟨false, v1, 8⟩) State.reset)).map (·.st) = some 2 ∧
    (nextOf (exec (.parse ⟨false, e8, 10⟩) State.reset)).map (·.st) = some 2 := by decide

theorem witness_ParseStatusNamesTheFirstFailingCheck :
    ∃ t, exec (.parse ⟨false, v1, 9⟩) State.reset = .next t := ⟨_, rfl⟩

theorem witness_ParseReadsOnlyReceivedBytes :
    (v1 ≠ { v1 with b8 := 0 }) ∧ ∀ i, receivedRead v1 8 i = receivedRead { v1 with b8 := 0 } 8 i := by
  refine ⟨by decide, fun i => ?_⟩
  match i with
  | 0 | 1 | 2 | 3 | 4 | 5 | 6 | 7 => rfl
  | n + 8 => simp [receivedRead]

/-- The first reserved byte of V6 changed, and byte 8 adjusted. -/
theorem witness_ReservedBytesAreSummedAndNotRead_first :
    frameRead v6 4 = some 0x44 ∧ (0x45 : Byte) ≠ 0x44 ∧
      frameWrite v6 4 0x45 = some { v6 with b4 := 0x45 } ∧
      frameWrite { v6 with b4 := 0x45 } 8 (cksum { v6 with b4 := 0x45 }) = some { v6 with b4 := 0x45, b8 := 0x81 } ∧
      (nextOf (exec (.parse ⟨false, v6, 9⟩) State.reset)).map (·.st) = some stOk := by decide

/-- The last reserved byte of V6 changed, and byte 8 adjusted. -/
theorem witness_ReservedBytesAreSummedAndNotRead_last :
    frameRead v6 7 = some 0x07 ∧ (0x08 : Byte) ≠ 0x07 ∧
      frameWrite v6 7 0x08 = some { v6 with b7 := 0x08 } ∧
      frameWrite { v6 with b7 := 0x08 } 8 (cksum { v6 with b7 := 0x08 }) = some { v6 with b7 := 0x08, b8 := 0x81 } := by decide

theorem witness_NoSingleBitMutationOfAResponseIsAccepted :
    (frameRead v1 1 = some 0x86 ∧ frameWrite v1 1 (0x86 ^^^ (1#8 <<< 7)) = some { v1 with b1 := 0x06 }) ∧
    (frameRead v1 2 = some 0x03 ∧ frameWrite v1 2 (0x03 ^^^ (1#8 <<< 0)) = some { v1 with b2 := 0x02 }) ∧
    (nextOf (exec (.parse ⟨true, v1, 9⟩) State.reset)).map (·.st) = some stOk := by decide

theorem witness_ParseAcceptsExactlyTheWellFormedResponses :
    (∃ t, exec (.parse ⟨false, v1, 9⟩) State.reset = .next t) ∧ isRsp9 v1.toBits = true ∧ isRsp9 e16.toBits = false :=
  ⟨⟨_, rfl⟩, by decide, by decide⟩

theorem witness_AnEarlierParseLeavesNoTrace : ∃ t, exec (.parse ⟨false, e16, 9⟩) State.reset = .next t := ⟨_, rfl⟩

theorem witness_ResponseFrameRowIsParsed : acalOnFrame ∈ commandFrames := by decide

/-- The reserved codes at both ends. -/
theorem witness_ReservedRequestsAreRefused :
    (0b101 : BitVec 3) ∈ [(0b101 : BitVec 3), 0b110, 0b111] ∧ (0b111 : BitVec 3) ∈ [(0b101 : BitVec 3), 0b110, 0b111] ∧
      (State.reset.present (.port (BitVec.ofBool true ++ (0b111 : BitVec 3)) v1 9)).agenda.next =
        some (.request (.port (BitVec.ofBool true ++ (0b111 : BitVec 3)) v1 9), Agenda.empty) := by decide

theorem witness_OperationsAreStatelessWithinTheirGroup :
    groupOf (.parse someOperands) = some .parse ∧ groupOf (.cksum someOperands) = some .check ∧
      groupOf .cmdAcalOff = some .build := by decide

theorem witness_OperationsAreIdempotent :
    (groupOf (.bldacal someOperands)).isSome = true ∧ ∃ t, exec (.bldacal someOperands) State.reset = .next t :=
  ⟨by decide, _, rfl⟩

/-- The admitted codes at both ends, with `EN` set. -/
theorem witness_EveryAdmittedRequestCompletes :
    ((0x8 : BitVec 4) &&& 0x7).toNat ≤ 4 ∧ ((0xC : BitVec 4) &&& 0x7).toNat ≤ 4 ∧
      (State.reset.present (.port 0xC v1 9)).agenda.next = some (.request (.port 0xC v1 9), Agenda.empty) := by decide

theorem witness_DecodeEncodeRoundTrip :
    (Instr.rspCo2 v1).wellFormed = true ∧ (Instr.reqReserved67 6 someOperands).wellFormed = true ∧
      (Instr.setacal true).wellFormed = true := by decide

theorem witness_EncodeDecodeRoundTrip :
    decode (.received e8) = .ok (.parse ⟨false, e8, 9⟩) ∧ decode (.received v1) = .ok (.rspCo2 v1) := by decide

theorem witness_FrameFormatsAreNotMixed :
    decode (.received readCo2Frame) = .ok (.parse ⟨false, readCo2Frame, 9⟩) ∧
      decode (.command readCo2Frame) = .ok .cmdReadCo2 := by decide

/-- The last index. -/
theorem witness_FramesAndNumbersRoundTrip : frameRead v1 8 = some (v1.toBits.extractLsb' 0 8) := by decide

theorem witness_Readco2FollowsItsSequence_write_fails :
    (fake .opened [.ioError] []).transport.session = .opened ∧
      (fake .opened [.ioError] []).transport.writeAnswer = .ioError := by decide

theorem witness_Readco2FollowsItsSequence_read_fails :
    (fake .opened [.count 9] [.ioError]).transport.session = .opened ∧
      (fake .opened [.count 9] [.ioError]).transport.writeAnswer = .count 9 ∧
      ((fake .opened [.count 9] [.ioError]).transport.afterWrite [0xFF, 0x01, 0x86, 0, 0, 0, 0, 0, 0x79]).readAnswer = .ioError := by
  decide

theorem witness_Readco2FollowsItsSequence_parses :
    (fake .opened [.count 9] [.count 9 v1]).transport.session = .opened ∧
      (fake .opened [.count 9] [.count 9 v1]).transport.writeAnswer = .count 9 ∧
      ((fake .opened [.count 9] [.count 9 v1]).transport.afterWrite [0xFF, 0x01, 0x86, 0, 0, 0, 0, 0, 0x79]).readAnswer =
        .count 9 v1 := by decide

/-- The four statuses that end a READCO2: the counts 9 and 8, and the frames E8 and E16. -/
theorem witness_Readco2FollowsItsSequence_statuses :
    (nextOf (exec .readco2 (fake .opened [.count 9] [.count 9 v1]))).map (·.st) = some stOk ∧
      (nextOf (exec .readco2 (fake .opened [.count 9] [.count 8 v1]))).map (·.st) = some stLen ∧
      (nextOf (exec .readco2 (fake .opened [.count 9] [.count 9 e8]))).map (·.st) = some stHdr ∧
      (nextOf (exec .readco2 (fake .opened [.count 9] [.count 9 e16]))).map (·.st) = some stCks := by decide

theorem witness_CalzeroIsFireAndForget :
    (fake .opened [.count 9] []).transport.session = .opened ∧
      (fake .opened [.count 9] []).transport.writeAnswer = .count 9 ∧
      (fake .opened [.ioError] []).transport.session = .opened ∧
      (fake .opened [.ioError] []).transport.writeAnswer = .ioError := by decide

theorem witness_SetacalIsFireAndForget :
    (nextOf (exec (.setacal true) (fake .opened [.count 9] []))).map (·.txf) = some acalOnFrame ∧
      (nextOf (exec (.setacal false) (fake .opened [.ioError] []))).map (·.txf) = some acalOffFrame := by decide

/-- A session that is closed, one whose `open` failed, and the partial writes 0 and 8. -/
theorem witness_TransactionsStopOnlyAsNamed :
    (fake .closed [] []).transport.session ≠ .opened ∧ (fake .openFailed [] []).transport.session ≠ .opened ∧
      (fake .opened [.count 0] []).transport.writeAnswer = .count 0 ∧ (0 : Fin 10) ≠ 9 ∧
      (fake .opened [.count 8] []).transport.writeAnswer = .count 8 ∧ (8 : Fin 10) ≠ 9 ∧
      faultOf (exec .calzero (fake .opened [.count 8] [])) = some .partialWrite := by decide

/-- A stop of each kind. -/
theorem witness_TransactionsStopOnlyAsNamed_stops :
    faultOf (exec (.setacal true) (fake .opened [.count 0] [])) = some .partialWrite ∧
      refusalOf (exec .readco2 (fake .closeFailed [] [])) = some .transportNotOpen := by decide

theorem witness_TransportErrorsPassTheCodecBy :
    (nextOf (exec .readco2 (fake .opened [.count 9] [.ioError]))).map (·.result) = some (some (.error .ioError)) ∧
      (nextOf (exec .calzero (fake .opened [.ioError] []))).map (·.result) = some (some (.error .ioError)) := by decide

theorem witness_AReadingIsNeverReturnedForABadResponse :
    (nextOf (exec .readco2 (fake .opened [.count 9] [.count 9 v1]))).map (·.result) = some (some (.reading 800)) := by decide

theorem witness_Readco2RefinesBldrdThenParse :
    (fake .opened [.count 9] [.count 5 e8]).transport.session = .opened ∧
      (fake .opened [.count 9] [.count 5 e8]).transport.writeAnswer = .count 9 ∧
      ((fake .opened [.count 9] [.count 5 e8]).transport.afterWrite [0xFF, 0x01, 0x86, 0, 0, 0, 0, 0, 0x79]).readAnswer =
        .count 5 e8 := by decide

theorem witness_OpenAndCloseFollowTheSession_open :
    ((session .closed [.handle] []).transport.session = .closed ∧ (session .closed [.handle] []).transport.openAnswer = .handle) ∧
    ((session .closed [.connectionError] []).transport.session = .closed ∧
      (session .closed [.connectionError] []).transport.openAnswer = .connectionError) ∧
    (session .openFailed [.handle] []).transport.session ≠ .closed := by decide

theorem witness_OpenAndCloseFollowTheSession_close :
    ((session .opened [] [.closed]).transport.session = .opened ∧ (session .opened [] [.closed]).transport.closeAnswer = .closed) ∧
    ((session .opened [] [.ioError]).transport.session = .opened ∧ (session .opened [] [.ioError]).transport.closeAnswer = .ioError) ∧
    (session .closeFailed [] [.closed]).transport.session ≠ .opened := by decide

theorem witness_StepRunsTheDecodedInstruction_request :
    (State.reset.present (.received v1)).agenda.next = some (.request (.received v1), Agenda.empty) ∧
      decode (.received v1) = .ok (.rspCo2 v1) ∧ (Instr.rspCo2 v1).wellFormed = true ∧
      (State.reset.present (.command v1)).agenda.next = some (.request (.command v1), Agenda.empty) ∧
      decode (.command v1) = .reject .notACommandFrame := by decide

theorem witness_StepRunsTheDecodedInstruction_events :
    Agenda.next ⟨[.reset], none⟩ = some (.reset, Agenda.empty) ∧
      Agenda.next ⟨[.openTransport], none⟩ = some (.openTransport, Agenda.empty) ∧
      Agenda.next ⟨[.closeTransport], none⟩ = some (.closeTransport, Agenda.empty) ∧ State.reset.agenda.next = none := by decide

theorem witness_OnlyResetReachesStNoneOrClearsTxv :
    Agenda.next ⟨[.reset, .closeTransport], none⟩ = some (.reset, ⟨[.closeTransport], none⟩) ∧
      (State.reset.present Call.bldrd.request).agenda.next = some (.request (.port 0x0 Frame.zero 0), Agenda.empty) ∧
      Event.request (.port 0x0 Frame.zero 0) ≠ .reset ∧ (after .bldrd).isSome = true := by decide

/-- The invariant of the registers has a state with an error in it, and a step from there. -/
theorem witness_EveryStepKeepsTheRegisterInvariant :
    ∃ s t : State, s.st = stLen ∧ s.Inv ∧ step s = .next t := by
  refine ⟨(parseInto 5 v1 State.reset).present (Call.parse 9 (frameBytes v1)).request, _, rfl, ?_, rfl⟩
  constructor <;> decide

theorem witness_OnlyCommandFramesAreEverHandedOver :
    ∃ s t : State, s.transport.handed ≠ [] ∧ OnlyCommandsHanded s ∧ step s = .next t := by
  refine ⟨(State.reset.withTransport { Transport.initial with handed := frameBytes calZeroFrame, writes := [.count 9] }).present
    Call.calzero.request, _, by decide, ⟨[calZeroFrame], by decide, rfl⟩, rfl⟩

/-- An infinite sequence of admitted words, CKSUM with `EN` set. -/
theorem witness_RunsTakeOneStepPerRequest_infinite :
    ∀ n e, eventAt (fun _ => .request (.port 0xB v1 0)) none n = some e → Admitted e := by
  intro n e h
  cases h
  exact ⟨0xB, v1, 0, rfl, by decide⟩

/-- A finite sequence of two: the admitted word `0x4`, then the reserved word `0x5`; and past its end there is no event. -/
theorem witness_RunsTakeOneStepPerRequest_finite :
    let q : Nat → Event := fun n => if n = 0 then .request (.port 0x4 v1 9) else .request (.port 0x5 v1 9)
    eventAt q (some 2) 0 = some (.request (.port 0x4 v1 9)) ∧ (nextOf (runOver q (some 2) State.reset 1)).map (·.ppm) = some 800 ∧
      eventAt q (some 2) 1 = some (.request (.port 0x5 v1 9)) ∧ 4 < ((0x5 : BitVec 4) &&& 0x7).toNat ∧
      refusalOf (runOver q (some 2) State.reset 2) = some .reservedRequest ∧ eventAt q (some 2) 2 = none := by decide

/-- A finite agenda of two requests, and its last state. -/
theorem witness_TheMachineRunsItsAgenda_finite :
    Agenda.length ⟨[.request (.port 0x0 v1 0), .request (.port 0x4 v1 9)], none⟩ = some 2 ∧
      (nextOf (steps (State.reset.withAgenda ⟨[.request (.port 0x0 v1 0), .request (.port 0x4 v1 9)], none⟩) 2)).map
        (fun t => (t.txv, t.ppm, t.agenda)) = some (true, 800, Agenda.empty) := by decide

/-- An infinite agenda whose first event is listed. -/
theorem witness_TheMachineRunsItsAgenda_infinite :
    Agenda.length ⟨[.request (.port 0x1 v1 0)], some 0⟩ = none ∧
      (nextOf (steps (State.reset.withAgenda ⟨[.request (.port 0x1 v1 0)], some 0⟩) 1)).map (fun t => (t.txv, t.agenda)) =
        some (true, ⟨[], some 0⟩) := by decide

/-- The last byte lane a call may write, and the first one it does not. -/
theorem witness_TextualCallsDecodeToTheirOperations :
    frameRead (Frame.ofBytes (frameBytes v1)) 8 = some 0x57 ∧ frameRead (Frame.ofBytes [0xFF]) 1 = some 0x00 := by decide

/-- A state after an accepted response and a build passes both guards. -/
theorem witness_GuardedRegistersAreTrustworthy :
    ∃ s : State, s.Inv ∧ s.reading = some 800 ∧ s.commandFrame = some readCo2Frame := by
  refine ⟨(parseInto 9 v1 State.reset).writeBuild readCo2Frame, ?_, by decide, by decide⟩
  constructor <;> decide

/-- The machine as the host sees it takes no step where nothing is presented. -/
theorem test_core_reset : refusalOf (Sys2Proof.core.step Sys2Proof.core.reset) = some .nothingPresented := by decide

end Sys2Proof.Tests
end

section
/-! A frame and its 72-bit value (00_scope.md R12): each conversion undoes the other, and a byte is read at its bit positions. -/

namespace Sys2Proof

open Machine

/-- Byte `i` of the frame of a number is the eight bits that start at bit `64 - 8 * i`. -/
theorem frameRead_ofNat (w : Nat) {i : Nat} (hi : i ≤ 8) :
    frameRead (Frame.ofNat w) i = some (.ofNat 8 (w / 2 ^ (64 - 8 * i))) :=
  match i, hi with
  | 0, _ | 1, _ | 2, _ | 3, _ | 4, _ | 5, _ | 6, _ | 7, _ => rfl
  | 8, _ => by simp [frameRead, Frame.ofNat]

/-- Dividing the weighted sum of `Frame.toBits_toNat` by the weight of one byte leaves that byte modulo 256. -/
theorem Frame.ofNat_toBits (f : Frame) : Frame.ofNat f.toBits.toNat = f := by
  have h0 := f.b0.isLt
  have h1 := f.b1.isLt
  have h2 := f.b2.isLt
  have h3 := f.b3.isLt
  have h4 := f.b4.isLt
  have h5 := f.b5.isLt
  have h6 := f.b6.isLt
  have h7 := f.b7.isLt
  have h8 := f.b8.isLt
  simp only [Frame.ext_iff, Frame.ofNat, ← BitVec.toNat_inj, BitVec.toNat_ofNat, Frame.toBits_toNat]
  refine ⟨?_, ?_, ?_, ?_, ?_, ?_, ?_, ?_, ?_⟩ <;> omega

/-- The part of a number above a byte, joined with that byte, is the part of the number from the byte on. -/
theorem high_add_byte (w k : Nat) :
    w / 2 ^ (k + 8) * 2 ^ (k + 8) + w / 2 ^ k % 2 ^ 8 * 2 ^ k = w / 2 ^ k * 2 ^ k := by
  rw [pow_add, ← Nat.div_div_eq_div_mul, mul_comm (2 ^ k), ← mul_assoc, ← add_mul, Nat.div_add_mod']

/-- The start byte of a 72-bit value is all of the value above bit 63, and each further byte joins it by `high_add_byte`. -/
theorem Frame.toBits_ofNat (w : BitVec 72) : (Frame.ofNat w.toNat).toBits = w := by
  have hw := w.isLt
  have top : w.toNat / 2 ^ 64 % 2 ^ 8 = w.toNat / 2 ^ 64 := Nat.mod_eq_of_lt (by omega)
  apply BitVec.eq_of_toNat_eq
  simp only [Frame.toBits_toNat, Frame.ofNat, BitVec.toNat_ofNat]
  rw [top, high_add_byte _ 56, high_add_byte _ 48, high_add_byte _ 40, high_add_byte _ 32, high_add_byte _ 24,
    high_add_byte _ 16, high_add_byte _ 8, Nat.div_add_mod']

/-- `F[i]` is bits `71 - 8 * i : 64 - 8 * i` of the frame's value: the frame is the frame of its own value. -/
theorem frameRead_eq_extractLsb'_toBits (f : Frame) {i : Nat} (hi : i ≤ 8) :
    frameRead f i = some (f.toBits.extractLsb' (64 - 8 * i) 8) := by
  calc frameRead f i = frameRead (Frame.ofNat f.toBits.toNat) i := by rw [Frame.ofNat_toBits]
    _ = some (.ofNat 8 (f.toBits.toNat / 2 ^ (64 - 8 * i))) := frameRead_ofNat _ hi
    _ = some (f.toBits.extractLsb' (64 - 8 * i) 8) := by rw [← Nat.shiftRight_eq_div_pow]; rfl

/-- Settles O33: both round trips and the position of each byte. -/
theorem framesAndNumbersRoundTrip : Obligations.FramesAndNumbersRoundTrip :=
  ⟨Frame.ofNat_toBits, Frame.toBits_ofNat, fun f _ hi => frameRead_eq_extractLsb'_toBits f hi⟩

end Sys2Proof
end

section
/-! The registers of the Frame Codec (10_state.md): what an operation writes, by write group (R16, R25), the reset values
(R32), and the invariant of the registers, which reset meets and every step keeps. -/

namespace Sys2Proof.Machine

/-! ### Writes of a whole group (R16, R25) -/

/-- A write of every register of one group, with values that do not depend on the state. -/
inductive Group.Writes : Group → (State → State) → Prop where
  | build (f : Frame) : Group.Writes .build (·.writeBuild f)
  | check (c : Byte) (b : Bool) : Group.Writes .check (·.writeCheck c b)
  | parse (st : BitVec 3) (p : BitVec 16) (n : BitVec 4) (e : Frame) : Group.Writes .parse (·.writeParse st p n e)

theorem writes_parseInto (n : BitVec 4) (f : Frame) : Group.Writes .parse (parseInto n f) := by
  obtain ⟨st, p, e, h⟩ := parseInto_eq_writeParse n f
  rw [funext h]
  exact .parse st p n e

/-- An operation of a group completes from every state, and what it does is one write of that group. -/
theorem exec_eq_next_of_groupOf {i : Instr} {g : Group} (h : groupOf i = some g) :
    ∃ w, g.Writes w ∧ ∀ s, exec i s = .next (w s) := by
  cases i <;> cases h
  case bldrd | bldzero | bldacal | cmdReadCo2 | cmdCalZero | cmdAcalOn | cmdAcalOff =>
    exact ⟨_, .build _, fun _ => rfl⟩
  case cksum => exact ⟨_, .check _ _, fun _ => rfl⟩
  case parse | rspCo2 => exact ⟨_, writes_parseInto _ _, fun _ => rfl⟩

section
variable {g : Group} {w : State → State} (hw : g.Writes w)
include hw

theorem Group.Writes.same (s s' : State) : g.Same (w s) (w s') := by
  cases hw with
  | build => exact ⟨rfl, rfl⟩
  | check => exact ⟨rfl, rfl⟩
  | parse => exact ⟨rfl, rfl, rfl, rfl⟩

theorem Group.Writes.same_other {g' : Group} (hg : g' ≠ g) (s : State) : g'.Same s (w s) := by
  cases hw <;> cases g'
  case build.build | check.check | parse.parse => exact absurd rfl hg
  case build.check | check.build | parse.build | parse.check => exact ⟨rfl, rfl⟩
  case build.parse | check.parse => exact ⟨rfl, rfl, rfl, rfl⟩

theorem Group.Writes.sameOutside (s : State) : SameOutside s (w s) := by
  cases hw <;> exact ⟨rfl, rfl, rfl⟩

end

/-- Settles O24: an operation is one write of its group, the same from any two states. -/
theorem operationsAreStatelessWithinTheirGroup : Obligations.OperationsAreStatelessWithinTheirGroup := by
  intro i g hi s s'
  obtain ⟨w, hw, hexec⟩ := exec_eq_next_of_groupOf hi
  exact ⟨w s, w s', hexec s, hexec s', hw.same s s', fun _ hg => hw.same_other hg s, hw.sameOutside s⟩

/-! ### Reset (R32) -/

/-- Settles O43: the values stand in `State.reset`. -/
theorem resetValuesAreZero : Obligations.ResetValuesAreZero :=
  ⟨rfl, rfl, rfl, rfl, rfl, rfl, rfl, rfl⟩

/-- `TXV` is 0 and `ST` is `ST_NONE`, and the registers that the invariant then speaks of are 0. -/
theorem reset_inv : State.reset.Inv where
  txf_unbuilt := fun _ => rfl
  txf_built := nofun
  st_range := by decide
  st_none := fun _ => ⟨rfl, rfl, rfl⟩
  st_len := by decide
  st_hdr := by decide
  st_cks := by decide
  st_ok := by decide

/-- Settles O45: the lemma `reset_inv`. -/
theorem resetHasTheRegisterInvariant : Obligations.ResetHasTheRegisterInvariant := reset_inv

/-! ### What the invariant reads: the BUILD group and the PARSE group, and nothing else -/

theorem inv_congr {s t : State} (hb : SameBuild s t) (hp : SameParse s t) : t.Inv ↔ s.Inv := by
  cases s
  cases t
  simp only [SameBuild, SameParse] at hb hp
  obtain ⟨rfl, rfl⟩ := hb
  obtain ⟨rfl, rfl, rfl, rfl⟩ := hp
  exact ⟨fun h => { h with }, fun h => { h with }⟩

section
variable (s : State)

@[simp] theorem inv_withAgenda (a : Agenda) : (s.withAgenda a).Inv ↔ s.Inv :=
  inv_congr ⟨rfl, rfl⟩ ⟨rfl, rfl, rfl, rfl⟩

@[simp] theorem inv_withTransport (tr : Transport) : (s.withTransport tr).Inv ↔ s.Inv :=
  inv_congr ⟨rfl, rfl⟩ ⟨rfl, rfl, rfl, rfl⟩

@[simp] theorem inv_withResult (r : CallResult) : (s.withResult r).Inv ↔ s.Inv :=
  inv_congr ⟨rfl, rfl⟩ ⟨rfl, rfl, rfl, rfl⟩

@[simp] theorem inv_handOver : s.handOver.Inv ↔ s.Inv := inv_withTransport s _

@[simp] theorem inv_collect : s.collect.Inv ↔ s.Inv := inv_withTransport s _

@[simp] theorem inv_writeCheck (c : Byte) (b : Bool) : (s.writeCheck c b).Inv ↔ s.Inv :=
  inv_congr ⟨rfl, rfl⟩ ⟨rfl, rfl, rfl, rfl⟩

/-- A reset of the FC leaves the registers of the reset state (R127). -/
@[simp] theorem inv_resetRegisters : s.resetRegisters.Inv :=
  (inv_congr (s := State.reset) (t := s.resetRegisters) ⟨rfl, rfl⟩ ⟨rfl, rfl, rfl, rfl⟩).2 reset_inv

end

/-! ### What keeps the invariant -/

theorem State.Inv.of_writeBuild {s : State} (h : s.Inv) {f : Frame} (hf : f ∈ commandFrames) : (s.writeBuild f).Inv :=
  { h with
    txf_unbuilt := nofun
    txf_built := fun _ => hf }

/-- Each of the four ends of a PARSE writes what the invariant says of the status it writes (R94). -/
theorem State.Inv.of_parseInto {s : State} (h : s.Inv) (n : BitVec 4) (f : Frame) : (parseInto n f s).Inv := by
  obtain ⟨hn, hp⟩ | ⟨rfl, hh, hp⟩ | ⟨rfl, ⟨h0, h1⟩, hc, hp⟩ | ⟨rfl, ⟨h0, h1⟩, hc, hp⟩ :=
    parseInto_cases n f s <;> rw [hp]
  · exact { h with
      st_range := show stLen.toNat ≤ 4 by decide, st_none := nofun, st_hdr := nofun, st_cks := nofun, st_ok := nofun
      st_len := fun _ => ⟨rfl, hn, rfl⟩ }
  · exact { h with
      st_range := show stHdr.toNat ≤ 4 by decide, st_none := nofun, st_len := nofun, st_cks := nofun, st_ok := nofun
      st_hdr := fun _ => ⟨rfl, rfl, not_and_or.1 hh⟩ }
  · exact { h with
      st_range := show stCks.toNat ≤ 4 by decide, st_none := nofun, st_len := nofun, st_hdr := nofun, st_ok := nofun
      st_cks := fun _ => ⟨rfl, rfl, h0, h1, hc⟩ }
  · exact { h with
      st_range := show stOk.toNat ≤ 4 by decide, st_none := nofun, st_len := nofun, st_hdr := nofun, st_cks := nofun
      st_ok := fun _ => ⟨rfl, h0, h1, hc, ppmOf_toNat f⟩ }

/-- A transaction writes the FC by a build and, where it receives, a PARSE (43_transactions.md R98 to R100). -/
theorem State.Inv.of_transacted {s t : State} (h : s.Inv) (ht : Transacted s t) : t.Inv := by
  cases ht with
  | writeFailed f hf => simpa using h.of_writeBuild hf
  | sent f hf => simpa using h.of_writeBuild hf
  | readFailed => simpa using h.of_writeBuild (f := readCo2Frame) (by decide)
  | parsed n f =>
    have hbuilt : (s.writeBuild readCo2Frame).handOver.collect.Inv := by
      simpa using h.of_writeBuild (f := readCo2Frame) (by decide)
    simpa using hbuilt.of_parseInto (dlenOf n) f

theorem State.Inv.of_executed {i : Instr} {s t : State} (h : s.Inv) (ht : Executed i s t) : t.Inv := by
  cases ht with
  | build f hf => exact h.of_writeBuild hf
  | check => simpa using h
  | parse n f => exact h.of_parseInto n f
  | transaction _ _ ht => exact h.of_transacted ht

/-- Settles O46: a step is an instruction, a reset of the FC, or an `open` or `close` that no register sees. -/
theorem everyStepKeepsTheRegisterInvariant : Obligations.EveryStepKeepsTheRegisterInvariant := by
  intro s t h hstep
  cases step_cases hstep with
  | request r rest i _ _ _ hexec => exact ((inv_withAgenda s rest).2 h).of_executed hexec
  | reset => simp
  | opened => simpa using h
  | closed => simpa using h

end Sys2Proof.Machine
end

section
/-! Repeating a request (20_memory.md R41, 41_encode.md R81): a write of one group, done twice, is done once. -/

namespace Sys2Proof.Machine

/-- The second write finds in every register of its group the value it writes there. -/
theorem Group.Writes.idempotent {g : Group} {w : State → State} (hw : g.Writes w) (s : State) : w (w s) = w s := by
  cases hw with
  | build => rfl
  | check => rfl
  | parse => rfl

/-- Settles O25: an operation is one write of its group, from every state the same one. -/
theorem operationsAreIdempotent : Obligations.OperationsAreIdempotent := by
  intro i s t hi hst
  obtain ⟨g, hg⟩ := Option.isSome_iff_exists.1 hi
  obtain ⟨w, hw, hexec⟩ := exec_eq_next_of_groupOf hg
  obtain rfl : w s = t := Host.Outcome.next.inj ((hexec s).symm.trans hst)
  rw [hexec (w s), hw.idempotent s]

end Sys2Proof.Machine
end

section
/-! Decoding and encoding (30_encoding.md): what each form decodes to, said once, and the round trips between
instructions and their encoded forms. -/

namespace Sys2Proof

open Machine

/-! ### Request words (R56 to R58, R62) -/

/-- The instruction that the select code of a request chooses, with the operands beside it (R57, R62). -/
def selected (op : BitVec 3) (o : Operands) : Instr :=
  match op with
  | 0 => .bldrd o
  | 1 => .bldzero o
  | 2 => .bldacal o
  | 3 => .cksum o
  | 4 => .parse o
  | 5 => .reqReserved5 o
  | 6 => .reqReserved67 6 o
  | 7 => .reqReserved67 7 o

/-- Every request word falls under the row of its select code (R58). -/
theorem decode_port (w : BitVec 4) (din : Frame) (dlen : BitVec 4) :
    decode (.port w din dlen) = .ok (selected (opField w) ⟨enField w, din, dlen⟩) := by
  obtain ⟨n⟩ := w
  fin_cases n <;> rfl

/-- A request word is its two fields joined (R56): both are read back from it. -/
theorem fields_reqWord (en : Bool) (op : BitVec 3) : opField (reqWord en op) = op ∧ enField (reqWord en op) = en := by
  revert en op
  decide

theorem reqWord_fields (w : BitVec 4) : reqWord (enField w) (opField w) = w := by
  revert w
  decide

theorem decode_portRequest (op : BitVec 3) (o : Operands) : decode (portRequest op o) = .ok (selected op o) := by
  obtain ⟨hop, hen⟩ := fields_reqWord o.en op
  rw [portRequest, decode_port, hop, hen]

theorem runRequest_portRequest (op : BitVec 3) (o : Operands) (s : State) :
    runRequest (portRequest op o) s = exec (selected op o) s := by
  rw [runRequest, decode_portRequest]

theorem runRequest_port (w : BitVec 4) (din : Frame) (dlen : BitVec 4) (s : State) :
    runRequest (.port w din dlen) s = exec (selected (opField w) ⟨enField w, din, dlen⟩) s := by
  rw [runRequest, decode_port]

theorem selected_wellFormed (op : BitVec 3) (o : Operands) : (selected op o).wellFormed = true :=
  match op with
  | 0 | 1 | 2 | 3 | 4 | 5 | 6 | 7 => rfl

theorem encode_selected (op : BitVec 3) (o : Operands) : encode (selected op o) = portRequest op o :=
  match op with
  | 0 | 1 | 2 | 3 | 4 | 5 | 6 | 7 => rfl

/-! ### Frames (R49, R52, R53, R60) -/

/-- The four rows of format CMD9: a complete command frame and its instruction (R49). -/
inductive CommandRow : Frame → Instr → Prop where
  | readCo2 : CommandRow readCo2Frame .cmdReadCo2
  | calZero : CommandRow calZeroFrame .cmdCalZero
  | acalOn : CommandRow acalOnFrame .cmdAcalOn
  | acalOff : CommandRow acalOffFrame .cmdAcalOff

/-- The decoder of command frames knows the four rows and nothing else (R61). -/
theorem decodeCommand_cases {f : Frame} {i : Instr} (h : decodeCommand f = .ok i) : CommandRow f i := by
  unfold decodeCommand at h
  split_ifs at h with h1 h2 h3 h4 <;> cases h
  · exact h1 ▸ .readCo2
  · exact h2 ▸ .calZero
  · exact h3 ▸ .acalOn
  · exact h4 ▸ .acalOff

/-- Nine received bytes are a response where the header is right, and otherwise go to PARSE (R52, R60). -/
theorem decodeReceived_cases {f : Frame} {i : Instr} (h : decodeReceived f = .ok i) :
    (hasResponseHeader f = true ∧ i = .rspCo2 f) ∨ (¬ hasResponseHeader f = true ∧ i = .parse ⟨false, f, 9⟩) := by
  unfold decodeReceived at h
  split at h <;> cases h
  · next hf => exact .inl ⟨hf, rfl⟩
  · next hf => exact .inr ⟨hf, rfl⟩

/-- Byte 1 of a command frame is the address byte (R49). -/
theorem b1_of_mem_commandFrames {f : Frame} (hf : f ∈ commandFrames) : f.b1 = 0x01 := by
  obtain rfl | rfl | rfl | rfl := (commandFrames_mem f).1 hf <;> rfl

/-! ### The round trips -/

/-- Settles O30: a request word is decoded by its select code, a command frame by equality with it, a response by its
header, a transaction by its name. -/
theorem decodeEncodeRoundTrip : Obligations.DecodeEncodeRoundTrip := by
  intro i hi
  cases i with
  | bldrd o => exact decode_portRequest opBldrd o
  | bldzero o => exact decode_portRequest opBldzero o
  | bldacal o => exact decode_portRequest opBldacal o
  | cksum o => exact decode_portRequest opCksum o
  | parse o => exact decode_portRequest opParse o
  | reqReserved5 o => exact decode_portRequest opReserved5 o
  | reqReserved67 op o =>
    obtain rfl | rfl : op = 6 ∨ op = 7 := by simpa [Instr.wellFormed] using hi
    · exact decode_portRequest 6 o
    · exact decode_portRequest 7 o
  | cmdReadCo2 | cmdCalZero | cmdAcalOn | cmdAcalOff => decide
  | rspCo2 f => exact if_pos hi
  | readco2 | calzero | setacal => rfl

/-- Settles O31: by the form of what was presented. -/
theorem encodeDecodeRoundTrip : Obligations.EncodeDecodeRoundTrip := by
  intro r i h
  cases r with
  | port w din dlen =>
    rw [decode_port] at h
    cases h
    exact ⟨selected_wellFormed _ _, .inl (by rw [encode_selected, portRequest, reqWord_fields])⟩
  | command f => cases decodeCommand_cases h <;> exact ⟨rfl, .inl rfl⟩
  | received f =>
    obtain ⟨hf, rfl⟩ | ⟨hf, rfl⟩ := decodeReceived_cases h
    · exact ⟨hf, .inl rfl⟩
    · exact ⟨rfl, .inr ⟨f, rfl, not_and_or.1 (mt (hasResponseHeader_iff f).2 hf), rfl⟩⟩
  | transaction t => cases t <;> cases h <;> exact ⟨rfl, .inl rfl⟩

/-- Settles O32: a received frame becomes RSP.CO2 or PARSE, and a command frame one of the four rows, which put it into `TXF`. -/
theorem frameFormatsAreNotMixed : Obligations.FrameFormatsAreNotMixed := by
  intro f i
  constructor
  · intro h
    exact (decodeReceived_cases h).imp And.right And.right
  · intro h
    cases decodeCommand_cases h <;> exact ⟨by decide, rfl, rfl, fun s => ⟨_, rfl, rfl⟩⟩

/-- Settles O28: a finite table of sixteen words and seven rows. -/
theorem everyRequestWordHasExactlyOneRow : Obligations.EveryRequestWordHasExactlyOneRow := by
  unfold Obligations.EveryRequestWordHasExactlyOneRow
  decide

/-- Settles O29: nine closed words. -/
theorem sampleWordsDecode : Obligations.SampleWordsDecode := by
  unfold Obligations.SampleWordsDecode
  decide

/-! ### Textual calls (R65, R66) -/

theorem frameRead_ofBytes (l : List Byte) {i : Nat} (hi : i ≤ 8) : frameRead (Frame.ofBytes l) i = some (l.getD i 0) :=
  match i, hi with
  | 0, _ | 1, _ | 2, _ | 3, _ | 4, _ | 5, _ | 6, _ | 7, _ | 8, _ => rfl

/-- Settles O52: a call of an operation is a request word with its operands, a call of a transaction its name. -/
theorem textualCallsDecodeToTheirOperations : Obligations.TextualCallsDecodeToTheirOperations := by
  refine ⟨decode_port 0x0 _ _, decode_port 0x1 _ _, ?bldacal, fun f => decode_port 0x3 f _, ?parse, rfl, rfl, fun _ => rfl⟩
  case bldacal =>
    intro e
    cases e
    · exact decode_port 0x2 _ _
    · exact decode_port 0xA _ _
  case parse =>
    intro n raw
    exact ⟨Frame.ofBytes raw, decode_port 0x4 _ n, fun _ hi => frameRead_ofBytes raw hi⟩

end Sys2Proof
end

section
/-! What requests, command frames and response frames do (30_encoding.md R49, R52 to R54, R62, R63). -/

namespace Sys2Proof.Machine

/-! ### Builds and the rows of the command frames (R49; log 3) -/

theorem exec_bldrd (o : Operands) (s : State) : exec (.bldrd o) s = .next (s.writeBuild readCo2Frame) := by
  rw [← build_readCo2]
  rfl

theorem exec_bldzero (o : Operands) (s : State) : exec (.bldzero o) s = .next (s.writeBuild calZeroFrame) := by
  rw [← build_calZero]
  rfl

theorem exec_bldacal (o : Operands) (s : State) :
    exec (.bldacal o) s = .next (s.writeBuild (if o.en then acalOnFrame else acalOffFrame)) := by
  rw [← build_acal]
  rfl

/-- Two instructions that write the same frame to the BUILD group: what either leaves is that frame, and nothing else changed. -/
theorem built_alike {i j : Instr} {s : State} {f : Frame} (hi : exec i s = .next (s.writeBuild f))
    (hj : exec j s = .next (s.writeBuild f)) :
    ∃ t, exec i s = .next t ∧ t.txf = f ∧ t.txv = true ∧ SameCheck s t ∧ SameParse s t ∧ SameOutside s t ∧
      exec j s = .next t :=
  have hw : Group.Writes .build (·.writeBuild f) := .build f
  ⟨_, hi, rfl, rfl, hw.same_other (g' := .check) nofun s, hw.same_other (g' := .parse) nofun s, hw.sameOutside s, hj⟩

/-- Settles O4: each row writes the frame that its build operation writes. -/
theorem commandFrameRowsAreBuilt : Obligations.CommandFrameRowsAreBuilt := fun o s =>
  ⟨built_alike rfl (exec_bldrd o s), built_alike rfl (exec_bldzero o s),
    built_alike rfl (exec_bldacal { o with en := true } s), built_alike rfl (exec_bldacal { o with en := false } s)⟩

/-! ### Responses (R52 to R54, R60; log 4) -/

/-- PARSE accepts nine bytes with the response header and the right checksum, and nothing else (R52, 42_decode.md R89). -/
theorem parseInto_st_eq_stOk_iff (n : BitVec 4) (f : Frame) (s : State) :
    (parseInto n f s).st = stOk ↔ n = 9 ∧ (f.b0 = 0xFF ∧ f.b1 = 0x86) ∧ f.b8 = cksum f := by
  obtain ⟨hn, hp⟩ | ⟨_, hh, hp⟩ | ⟨_, _, hc, hp⟩ | ⟨hn, hh, hc, hp⟩ := parseInto_cases n f s <;> rw [hp]
  · exact iff_of_false nofun fun h => hn h.1
  · exact iff_of_false nofun fun h => hh h.2.1
  · exact iff_of_false nofun fun h => hc h.2.2
  · exact iff_of_true rfl ⟨hn, hh, hc⟩

theorem parseInto_of_not_header {f : Frame} (h : ¬(f.b0 = 0xFF ∧ f.b1 = 0x86)) (s : State) :
    parseInto 9 f s = s.writeParse stHdr 0 9 f := by
  obtain ⟨hn, _⟩ | ⟨_, _, hp⟩ | ⟨_, hh, _⟩ | ⟨_, hh, _⟩ := parseInto_cases 9 f s
  · exact absurd rfl hn
  · exact hp
  · exact absurd hh h
  · exact absurd hh h

/-- The match/mask pair of RSP9 on a frame's 72-bit value is the condition on bytes 0 and 1 (R52). -/
theorem toBits_mask_iff (f : Frame) :
    f.toBits &&& 0xFFFF00000000000000#72 = 0xFF8600000000000000#72 ↔ f.b0 = 0xFF ∧ f.b1 = 0x86 := by
  have h1 := f.b1.isLt
  have h2 := f.b2.isLt
  have h3 := f.b3.isLt
  have h4 := f.b4.isLt
  have h5 := f.b5.isLt
  have h6 := f.b6.isLt
  have h7 := f.b7.isLt
  have h8 := f.b8.isLt
  rw [rspCo2_mask_iff, Frame.toBits_toNat, ← BitVec.toNat_inj, ← BitVec.toNat_inj]
  show _ ↔ f.b0.toNat = 0xFF ∧ f.b1.toNat = 0x86
  omega

/-- Bits 7 to 0 of a frame's value are byte 8 (00_scope.md R12). -/
theorem toBits_low_byte (f : Frame) : f.toBits.extractLsb' 0 8 = f.b8 :=
  (Option.some.inj (frameRead_eq_extractLsb'_toBits f (i := 8) le_rfl)).symm

theorem isRsp9_toBits_iff (f : Frame) :
    isRsp9 f.toBits = true ↔ (f.b0 = 0xFF ∧ f.b1 = 0x86) ∧ f.b8 = cksum f := by
  rw [isRsp9, Bool.and_eq_true, beq_iff_eq, beq_iff_eq, toBits_low_byte, Frame.ofNat_toBits]
  exact and_congr_left' (toBits_mask_iff f)

/-- Settles O19: both sides say that the header and the checksum are right. -/
theorem parseAcceptsExactlyTheWellFormedResponses : Obligations.ParseAcceptsExactlyTheWellFormedResponses := by
  intro en f s t h
  obtain rfl : parseInto 9 f s = t := Host.Outcome.next.inj h
  rw [parseInto_st_eq_stOk_iff, isRsp9_toBits_iff]
  exact and_iff_right rfl

/-- Joining the two bytes is adding them at their weights (R54). -/
theorem ppmOf_eq_append (f : Frame) : ppmOf f = f.b2 ++ f.b3 := by
  apply BitVec.eq_of_toNat_eq
  rw [ppmOf_toNat, BitVec.toNat_append, Nat.shiftLeft_eq, mul_comm f.b2.toNat (2 ^ 8),
    ← Nat.two_pow_add_eq_or_of_lt f.b3.isLt, mul_comm]

/-- Settles O20: the lemmas `ppmOf_toNat` and `ppmOf_eq_append`. -/
theorem theReadingIsBigEndian : Obligations.TheReadingIsBigEndian :=
  fun f => ⟨ppmOf_toNat f, ppmOf_eq_append f⟩

/-- Settles O22: RSP.CO2 is a PARSE, which writes its own group only; byte 1 of a command frame is the address and not the echo. -/
theorem responseFrameRowIsParsed : Obligations.ResponseFrameRowIsParsed := by
  constructor
  · intro f en s
    have hw := writes_parseInto 9 f
    exact ⟨⟨_, rfl, hw.same_other (g' := .build) nofun s, hw.same_other (g' := .check) nofun s, hw.sameOutside s⟩, rfl⟩
  · intro f en s hf
    have hh : ¬(f.b0 = 0xFF ∧ f.b1 = 0x86) := by simp [b1_of_mem_commandFrames hf]
    exact ⟨_, congrArg Host.Outcome.next (parseInto_of_not_header hh s), rfl⟩

/-! ### Requests (R62, R63) -/

/-- Settles O23: the three reserved codes select the two reserved rows. -/
theorem reservedRequestsAreRefused : Obligations.ReservedRequestsAreRefused := by
  refine ⟨fun o op s => ⟨rfl, rfl⟩, ?_⟩
  intro en op din dlen s rest hop hnext
  have hstep : step s = exec (selected op ⟨en, din, dlen⟩) (s.withAgenda rest) := by
    rw [step_next hnext]
    exact runRequest_portRequest op ⟨en, din, dlen⟩ _
  rw [hstep]
  simp only [List.mem_cons, List.not_mem_nil, or_false] at hop
  obtain rfl | rfl | rfl := hop <;> rfl

/-- Settles O26: each word selects an operation whose meaning does not read the operand that was changed. -/
theorem ignoredOperandBitsDoNotMatter : Obligations.IgnoredOperandBitsDoNotMatter := by
  intro s
  simp only [List.forall_mem_cons, List.not_mem_nil, false_imp_iff, implies_true, and_true, runRequest_port]
  refine ⟨fun din dlen => ?en, fun din din' dlen dlen' => ?builds, fun din b dlen dlen' => ?cksum⟩
  case en => exact ⟨rfl, rfl, rfl, rfl⟩
  case builds => exact ⟨rfl, rfl, rfl, rfl, rfl, rfl⟩
  case cksum => exact ⟨rfl, rfl⟩

end Sys2Proof.Machine
end

section
/-! The record of what was handed to the transport (30_encoding.md R49, R61; 43_transactions.md R98 to R100; log 10): a step
adds one whole command frame to it or leaves it as it is. -/

namespace Sys2Proof.Machine

theorem parseInto_transport (n : BitVec 4) (f : Frame) (s : State) : (parseInto n f s).transport = s.transport := by
  obtain ⟨_, htransport, _⟩ := (writes_parseInto n f).sameOutside s
  exact htransport

/-- A transaction that answers a next state hands over one command frame. -/
theorem Transacted.handed {s t : State} (h : Transacted s t) :
    ∃ f ∈ commandFrames, t.transport.handed = s.transport.handed ++ frameBytes f := by
  cases h with
  | writeFailed f hf | sent f hf => exact ⟨f, hf, rfl⟩
  | readFailed => exact ⟨readCo2Frame, by decide, rfl⟩
  | parsed n f => exact ⟨readCo2Frame, by decide, by simp [parseInto_transport]⟩

theorem Executed.handed {i : Instr} {s t : State} (h : Executed i s t) :
    t.transport.handed = s.transport.handed ∨
      ∃ f ∈ commandFrames, t.transport.handed = s.transport.handed ++ frameBytes f := by
  cases h with
  | build | check => exact .inl rfl
  | parse n f => exact .inl (by rw [parseInto_transport])
  | transaction _ _ ht => exact .inr ht.handed

theorem Stepped.handed {s t : State} (h : Stepped s t) :
    t.transport.handed = s.transport.handed ∨
      ∃ f ∈ commandFrames, t.transport.handed = s.transport.handed ++ frameBytes f := by
  cases h with
  | request _ _ _ _ _ _ hexec => exact hexec.handed
  | reset | opened | closed => exact .inl rfl

/-- Settles O48: the frames on the record, with the one that the step handed over, if any, put at the end. -/
theorem onlyCommandFramesAreEverHandedOver : Obligations.OnlyCommandFramesAreEverHandedOver := by
  rintro s t ⟨fs, hfs, hs⟩ hstep
  obtain ht | ⟨f, hf, ht⟩ := (step_cases hstep).handed
  · exact ⟨fs, hfs, ht.trans hs⟩
  · exact ⟨fs ++ [f], List.forall_mem_append.2 ⟨hfs, List.forall_mem_singleton.2 hf⟩, by simp [ht, hs]⟩

end Sys2Proof.Machine
end

section
/-! The checksum (40_checksum.md): its forms, what it detects of a change to a frame, and the operation CKSUM. -/

namespace Sys2Proof.Machine

/-! ### The forms of the checksum (R67 to R69, R73) -/

theorem cksum_toNat (f : Frame) : (cksum f).toNat = (0xFF - byteSum f % 256 + 1) % 256 := BitVec.toNat_ofNat _ _

/-- The true sum, cut to a byte, is the sum in byte arithmetic. -/
theorem ofNat_byteSum (f : Frame) : BitVec.ofNat 8 (byteSum f) = f.b1 + f.b2 + f.b3 + f.b4 + f.b5 + f.b6 + f.b7 := by
  simp only [byteSum, BitVec.ofNat_add, BitVec.ofNat_toNat, BitVec.setWidth_eq]

theorem cksum_eq_neg_sum (f : Frame) : cksum f = -(f.b1 + f.b2 + f.b3 + f.b4 + f.b5 + f.b6 + f.b7) := by
  rw [← ofNat_byteSum]
  apply BitVec.eq_of_toNat_eq
  rw [cksum_toNat, BitVec.toNat_neg, BitVec.toNat_ofNat]
  omega

theorem cksum_eq_zero_iff (f : Frame) : cksum f = 0x00 ↔ byteSum f % 256 = 0 := by
  rw [← BitVec.toNat_inj, cksum_toNat]
  show _ = 0 ↔ _
  omega

/-- The checksum does not read byte 8, so writing it there makes the frame valid (R73). -/
theorem ckValid_setChecksum (f : Frame) : ckValid { f with b8 := cksum f } = true := (ckValid_iff _).2 rfl

/-- Settles O7: the lemma `cksum_toNat`. -/
theorem checksumFollowsItsFormula : Obligations.ChecksumFollowsItsFormula := cksum_toNat

/-- Settles O8: the negation is the complement plus one, and the frame that carries its own checksum has a sum of 0. -/
theorem checksumHasItsEquivalentForms : Obligations.ChecksumHasItsEquivalentForms := by
  intro f
  refine ⟨cksum_eq_neg_sum f, ?complement, (ckValid_iff_sum _).1 (ckValid_setChecksum f), ckValid_iff_sum f⟩
  case complement =>
    rw [cksum_eq_neg_sum, BitVec.neg_eq_not_add, ← BitVec.xor_allOnes]
    rfl

/-- Settles O9: the checksum is zero where the sum is, and the largest sum is seven times `0xFF`. -/
theorem checksumCornerCases : Obligations.ChecksumCornerCases := by
  refine ⟨fun f => (cksum_eq_zero_iff f).symm, ?zeroModulo, ?allOnes, ?zeroBytes⟩
  case zeroModulo | zeroBytes =>
    intro b0 b8
    rw [cksum_eq_zero_iff]
    simp [byteSum]
  case allOnes =>
    intro b0 b8
    simp [cksum_eq_neg_sum]

/-- Settles O11: the write at index 8 is the one of `ckValid_setChecksum`. -/
theorem checksumRoundTrip : Obligations.ChecksumRoundTrip := by
  intro f f' h
  cases h
  exact ckValid_setChecksum f

/-! ### What the checksum detects (R74) -/

theorem ckValid_congr {f g : Frame} (hsum : cksum f = cksum g) (h8 : f.b8 = g.b8) : ckValid f = ckValid g := by
  rw [ckValid, ckValid, hsum, h8]

/-- Writing one of bytes 1 to 8 replaces that byte's share of the sum that validation looks at. -/
theorem sum_frameWrite {f f' : Frame} {j : Nat} {b v : Byte} (hj : 1 ≤ j) (hr : frameRead f j = some b)
    (hw : frameWrite f j v = some f') :
    byteSum f' + f'.b8.toNat + b.toNat = byteSum f + f.b8.toNat + v.toNat :=
  match j, hj, hr, hw with
  | 1, _, hr, hw | 2, _, hr, hw | 3, _, hr, hw | 4, _, hr, hw
  | 5, _, hr, hw | 6, _, hr, hw | 7, _, hr, hw | 8, _, hr, hw => by
    cases hr
    cases hw
    simp only [byteSum]
    omega

/-- Any change of one of bytes 1 to 8 of a valid frame is detected: the sum moves by less than 256. -/
theorem ckValid_frameWrite_eq_false {f f' : Frame} {j : Nat} {b v : Byte} (hf : ckValid f = true) (hj : 1 ≤ j)
    (hr : frameRead f j = some b) (hw : frameWrite f j v = some f') (hv : v ≠ b) : ckValid f' = false := by
  rw [← Bool.not_eq_true]
  intro hf'
  rw [ckValid_iff_sum] at hf hf'
  have hsum := sum_frameWrite hj hr hw
  have hb := b.isLt
  have hv' := v.isLt
  exact hv (BitVec.eq_of_toNat_eq (by omega))

theorem xor_bit_ne_self (b : Byte) {k : Nat} (hk : k < 8) : b ^^^ (1#8 <<< k) ≠ b := by
  intro h
  have hbit : (b ^^^ (1#8 <<< k)).getLsbD k = b.getLsbD k := by rw [h]
  simp [hk] at hbit

/-- The top bit of a byte is flipped by adding it, the carry being lost. -/
theorem xor_topBit_eq_add (b : Byte) : b ^^^ 0x80 = b + 0x80 := by
  revert b
  decide

/-- The order of bytes 1 to 7 does not matter: their true sum is a sum over a list. -/
theorem byteSum_perm {f g : Frame}
    (h : [f.b1, f.b2, f.b3, f.b4, f.b5, f.b6, f.b7].Perm [g.b1, g.b2, g.b3, g.b4, g.b5, g.b6, g.b7]) :
    byteSum f = byteSum g := by
  have hsum := (h.map BitVec.toNat).sum_eq
  simpa [byteSum, add_assoc] using hsum

/-- Settles O12: a flipped bit changes its byte; byte 0 is not summed; the two cancelling changes and a permutation keep
the sum. -/
theorem checksumDetectsSingleBitMutationsOfBytes1To8 : Obligations.ChecksumDetectsSingleBitMutationsOfBytes1To8 := by
  refine ⟨?bit, ?start, fun f => ckValid_congr ?plusMinus rfl, fun f => ckValid_congr ?topBits rfl,
    fun f g h => cksum_congr (byteSum_perm h)⟩
  case bit =>
    intro f f' j k b hf hj _ hk hr hw
    exact ckValid_frameWrite_eq_false hf hj hr hw (xor_bit_ne_self b hk)
  case start =>
    intro f f' v h
    cases h
    exact ckValid_congr (cksum_congr rfl) rfl
  case plusMinus =>
    rw [cksum_eq_neg_sum, cksum_eq_neg_sum]
    ring
  case topBits =>
    have hcarry : (0x80 : Byte) + 0x80 = 0 := rfl
    rw [cksum_eq_neg_sum, cksum_eq_neg_sum, xor_topBit_eq_add, xor_topBit_eq_add]
    linear_combination -hcarry

/-! ### CKSUM (R72) -/

theorem exec_cksum (o : Operands) (s : State) :
    exec (.cksum o) s = .next (s.writeCheck (cksum o.din) (ckValid o.din)) := rfl

/-- Settles O10: CKSUM is one write of the CHECK group. -/
theorem cksumWritesTheChecksumAndTheVerdict : Obligations.CksumWritesTheChecksumAndTheVerdict := by
  intro en din dlen s
  have hw : Group.Writes .check (·.writeCheck (cksum din) (ckValid din)) := .check _ _
  exact ⟨decode_portRequest opCksum ⟨en, din, dlen⟩, _, exec_cksum ⟨en, din, dlen⟩ s, rfl, ckValid_iff din,
    hw.same_other (g' := .build) nofun s, hw.same_other (g' := .parse) nofun s, hw.sameOutside s⟩

end Sys2Proof.Machine
end

section
/-! The encoder (41_encode.md): what `build` gives byte by byte, what each build operation leaves, and the frames that the
request words of the build operations produce. -/

namespace Sys2Proof.Machine

/-! ### The frames of `build` (R77) -/

/-- The start byte and the zeros of a command body add nothing to the sum. -/
theorem byteSum_commandBody (opc p0 : Byte) : byteSum (commandBody opc p0) = 0x01 + opc.toNat + p0.toNat := by
  simp [byteSum, commandBody, addrByte]

theorem ckValid_build (opc p0 : Byte) : ckValid (build opc p0) = true := ckValid_setChecksum (commandBody opc p0)

theorem build_b8_toNat (opc p0 : Byte) :
    (build opc p0).b8.toNat = (0xFF - (0x01 + opc.toNat + p0.toNat) % 256 + 1) % 256 := by
  rw [← byteSum_commandBody]
  exact cksum_toNat (commandBody opc p0)

/-- Settles O5: a built frame is a body that was given its own checksum, and each build operation writes one. -/
theorem everyBuiltFrameValidates : Obligations.EveryBuiltFrameValidates := by
  refine ⟨?bytes, ?operations⟩
  case bytes =>
    intro opc p0
    have hck : (build opc p0).b8 = cksum (build opc p0) := (ckValid_iff _).1 (ckValid_build opc p0)
    exact ⟨rfl, rfl, rfl, rfl, rfl, rfl, rfl, rfl, hck, build_b8_toNat opc p0, ckValid_build opc p0⟩
  case operations =>
    intro o s i hi
    simp only [List.mem_cons, List.not_mem_nil, or_false] at hi
    obtain rfl | rfl | rfl := hi <;> exact ⟨_, _, _, rfl, rfl, rfl, ckValid_build _ _⟩

/-! ### The build operations (R78 to R80) -/

/-- An instruction that only writes a frame to the BUILD group, however that frame is written down. -/
theorem built_only {i : Instr} {s : State} {f g : Frame} (hi : exec i s = .next (s.writeBuild f)) (hfg : g = f) :
    ∃ t, exec i s = .next t ∧ t.txf = f ∧ t.txf = g ∧ t.txv = true ∧ SameCheck s t ∧ SameParse s t ∧ SameOutside s t := by
  obtain ⟨t, ht, hf, hv, hcheck, hparse, houtside, _⟩ := built_alike hi hi
  exact ⟨t, ht, hf, hf.trans hfg.symm, hv, hcheck, hparse, houtside⟩

/-- Settles O1: BLDRD writes the read-CO2 frame to the BUILD group. -/
theorem bldrdBuildsTheReadCo2Command : Obligations.BldrdBuildsTheReadCo2Command := fun en din dlen s =>
  ⟨decode_portRequest opBldrd ⟨en, din, dlen⟩, built_only (exec_bldrd _ s) build_readCo2⟩

/-- Settles O2: BLDZERO writes the calibrate-zero frame to the BUILD group. -/
theorem bldzeroBuildsTheCalibrateZeroCommand : Obligations.BldzeroBuildsTheCalibrateZeroCommand := fun en din dlen s =>
  ⟨decode_portRequest opBldzero ⟨en, din, dlen⟩, built_only (exec_bldzero _ s) build_calZero⟩

/-- Settles O3: BLDACAL writes the frame that `EN` chooses, from a payload byte that `EN` chooses. -/
theorem bldacalBuildsTheAutoCalibrationCommand : Obligations.BldacalBuildsTheAutoCalibrationCommand := by
  intro en din dlen s
  have hframe : (if en then build 0x79 0xA0 else build 0x79 0x00) = if en then acalOnFrame else acalOffFrame := by
    rw [← build_acal]
    cases en <;> rfl
  exact ⟨decode_portRequest opBldacal ⟨en, din, dlen⟩, built_only (exec_bldacal ⟨en, din, dlen⟩ s) hframe⟩

/-! ### The range of the builds (R65, R83) -/

/-- The frame that a request word of a build operation produces (`runRequest_build`). -/
def builtFrame (w : BitVec 4) : Frame :=
  if opField w = opBldrd then readCo2Frame
  else if opField w = opBldzero then calZeroFrame
  else if enField w then acalOnFrame else acalOffFrame

theorem builtFrame_mem (w : BitVec 4) : builtFrame w ∈ commandFrames := by
  rw [commandFrames_mem, builtFrame]
  split_ifs <;> simp

theorem runRequest_build {w : BitVec 4} (hop : opField w ∈ [opBldrd, opBldzero, opBldacal]) (din : Frame)
    (dlen : BitVec 4) (s : State) : runRequest (.port w din dlen) s = .next (s.writeBuild (builtFrame w)) := by
  simp only [List.mem_cons, List.not_mem_nil, or_false] at hop
  rw [runRequest_port, builtFrame]
  obtain h | h | h := hop <;> rw [h]
  · exact exec_bldrd _ s
  · exact exec_bldzero _ s
  · exact exec_bldacal _ s

/-- The canonical request words of the build operations (R65), in the order of `commandFrames`. -/
def canonicalBuilds : List (BitVec 4) := [0x0, 0x1, 0xA, 0x2]

theorem canonicalBuilds_map_builtFrame : canonicalBuilds.map builtFrame = commandFrames := by decide

/-- The four frames differ, so the canonical words and the frames stand one to one. -/
theorem existsUnique_builtFrame_eq {f : Frame} (hf : f ∈ commandFrames) :
    ∃! w, w ∈ canonicalBuilds ∧ builtFrame w = f := by
  have hnodup : (canonicalBuilds.map builtFrame).Nodup := by decide
  rw [← canonicalBuilds_map_builtFrame] at hf
  obtain ⟨w, hw, rfl⟩ := List.mem_map.1 hf
  exact ⟨w, ⟨hw, rfl⟩, fun v ⟨hv, hvw⟩ => List.inj_on_of_nodup_map hnodup hv hw hvw⟩

/-- Settles O6: every build word produces its `builtFrame`, and the canonical words produce each frame once. -/
theorem buildOperationsProduceExactlyTheFourFrames : Obligations.BuildOperationsProduceExactlyTheFourFrames := by
  intro s din dlen
  constructor
  · intro w hw
    have hop : ∀ w ∈ [(0x0 : BitVec 4), 0x1, 0x8, 0x9, 0x2, 0xA], opField w ∈ [opBldrd, opBldzero, opBldacal] := by decide
    exact ⟨_, runRequest_build (hop w hw) din dlen s, builtFrame_mem w⟩
  · intro f hf
    have hop : ∀ w ∈ canonicalBuilds, opField w ∈ [opBldrd, opBldzero, opBldacal] := by decide
    obtain ⟨w, ⟨hw, hwf⟩, hunique⟩ := existsUnique_builtFrame_eq hf
    refine ⟨w, ⟨hw, _, runRequest_build (hop w hw) din dlen s, hwf⟩, ?_⟩
    rintro v ⟨hv, t, ht, htf⟩
    rw [runRequest_build (hop v hv)] at ht
    cases ht
    exact hunique v ⟨hv, htf⟩

end Sys2Proof.Machine
end

section
/-! The decoder (42_decode.md): PARSE as one equation per end of its pseudocode (R94), the order of its checks (R90), the bytes
it reads (R91, R92), and what a write of one byte does to an accepted response. -/

namespace Sys2Proof.Machine

/-! ### The four ends of PARSE (R86 to R89, R94): `parseInto_of_not_header` and these three -/

theorem parseInto_of_length_ne {n : BitVec 4} (hn : n ≠ 9) (f : Frame) (s : State) :
    parseInto n f s = s.writeParse stLen 0 n Frame.zero := by
  obtain ⟨_, hp⟩ | ⟨h9, _⟩ | ⟨h9, _⟩ | ⟨h9, _⟩ := parseInto_cases n f s
  · exact hp
  all_goals exact absurd h9 hn

theorem parseInto_of_checksum_ne {f : Frame} (hh : f.b0 = 0xFF ∧ f.b1 = 0x86) (hc : f.b8 ≠ cksum f) (s : State) :
    parseInto 9 f s = s.writeParse stCks 0 9 f := by
  obtain ⟨hn, _⟩ | ⟨_, hh', _⟩ | ⟨_, _, _, hp⟩ | ⟨_, _, hc', _⟩ := parseInto_cases 9 f s
  · exact absurd rfl hn
  · exact absurd hh hh'
  · exact hp
  · exact absurd hc' hc

theorem parseInto_of_response {f : Frame} (hh : f.b0 = 0xFF ∧ f.b1 = 0x86) (hc : f.b8 = cksum f) (s : State) :
    parseInto 9 f s = s.writeParse stOk (ppmOf f) 9 f := by
  obtain ⟨hn, _⟩ | ⟨_, hh', _⟩ | ⟨_, _, hc', _⟩ | ⟨_, _, _, hp⟩ := parseInto_cases 9 f s
  · exact absurd rfl hn
  · exact absurd hh hh'
  · exact absurd hc hc'
  · exact hp

@[simp] theorem parseInto_elen (n : BitVec 4) (f : Frame) (s : State) : (parseInto n f s).elen = n := by
  obtain ⟨st, p, e, h⟩ := parseInto_eq_writeParse n f
  rw [h, State.writeParse_elen]

/-- Where nine bytes were received, all three later ends keep the raw frame (R93). -/
theorem parseInto_nine_eraw (f : Frame) (s : State) : (parseInto 9 f s).eraw = f := by
  obtain ⟨hn, _⟩ | ⟨_, _, hp⟩ | ⟨_, _, _, hp⟩ | ⟨_, _, _, hp⟩ := parseInto_cases 9 f s
  · exact absurd rfl hn
  all_goals rw [hp, State.writeParse_eraw]

/-- Settles O13: each clause is one end of PARSE, and PARSE is one write of its group. -/
theorem parseRunsItsThreeOrderedChecks : Obligations.ParseRunsItsThreeOrderedChecks := by
  intro en din dlen s
  have hw := writes_parseInto dlen din
  refine ⟨decode_portRequest opParse ⟨en, din, dlen⟩, parseInto dlen din s, rfl, parseInto_elen dlen din s,
    ?length, ?raw, ?header, ?checksum, ?response,
    hw.same_other (g' := .build) nofun s, hw.same_other (g' := .check) nofun s, hw.sameOutside s⟩
  case length =>
    intro hn
    rw [parseInto_of_length_ne hn]
    exact ⟨rfl, rfl, rfl⟩
  case raw =>
    rintro rfl
    exact parseInto_nine_eraw din s
  case header =>
    rintro rfl hh
    rw [parseInto_of_not_header (not_and_or.2 hh)]
    exact ⟨rfl, rfl⟩
  case checksum =>
    rintro rfl h0 h1 hc
    rw [parseInto_of_checksum_ne ⟨h0, h1⟩ hc]
    exact ⟨rfl, rfl⟩
  case response =>
    rintro rfl h0 h1 hc
    rw [parseInto_of_response ⟨h0, h1⟩ hc]
    exact ⟨ppmOf_toNat din, rfl⟩

/-! ### The order of the checks (R90) -/

/-- Settles O14: the conditions of the four ends exclude each other, and so do the codes that the ends write. -/
theorem parseStatusNamesTheFirstFailingCheck : Obligations.ParseStatusNamesTheFirstFailingCheck := by
  intro o s t h
  obtain rfl : parseInto o.dlen o.din s = t := Host.Outcome.next.inj h
  rw [← not_and_or, ← and_assoc (b := o.din.b1 = 0x86), ← and_assoc (b := o.din.b1 = 0x86)]
  obtain ⟨hn, hp⟩ | ⟨hn, hh, hp⟩ | ⟨hn, hh, hc, hp⟩ | ⟨hn, hh, hc, hp⟩ := parseInto_cases o.dlen o.din s <;>
    rw [hp, State.writeParse_st]
  · exact ⟨iff_of_true rfl hn, iff_of_false nofun fun h => hn h.1, iff_of_false nofun fun h => hn h.1,
      iff_of_false nofun fun h => hn h.1, .inl rfl⟩
  · exact ⟨iff_of_false nofun fun h => h hn, iff_of_true rfl ⟨hn, hh⟩, iff_of_false nofun fun h => hh h.2.1,
      iff_of_false nofun fun h => hh h.2.1, .inr (.inl rfl)⟩
  · exact ⟨iff_of_false nofun fun h => h hn, iff_of_false nofun fun h => h.2 hh, iff_of_true rfl ⟨hn, hh, hc⟩,
      iff_of_false nofun fun h => hc h.2.2, .inr (.inr (.inl rfl))⟩
  · exact ⟨iff_of_false nofun fun h => h hn, iff_of_false nofun fun h => h.2 hh, iff_of_false nofun fun h => h.2.2 hc,
      iff_of_true rfl ⟨hn, hh, hc⟩, .inr (.inr (.inr rfl))⟩

/-! ### What PARSE reads (R92, 20_memory.md R36) -/

/-- A frame is its nine bytes (20_memory.md R33). -/
theorem frame_eq_of_frameRead_eq {f g : Frame} (h : ∀ i ≤ 8, frameRead f i = frameRead g i) : f = g := by
  apply Frame.ext
  case b0 => exact Option.some.inj (h 0 (by decide))
  case b1 => exact Option.some.inj (h 1 (by decide))
  case b2 => exact Option.some.inj (h 2 (by decide))
  case b3 => exact Option.some.inj (h 3 (by decide))
  case b4 => exact Option.some.inj (h 4 (by decide))
  case b5 => exact Option.some.inj (h 5 (by decide))
  case b6 => exact Option.some.inj (h 6 (by decide))
  case b7 => exact Option.some.inj (h 7 (by decide))
  case b8 => exact Option.some.inj (h 8 (by decide))

/-- Where nine bytes were received, PARSE may read all of them. -/
theorem receivedRead_nine (f : Frame) {i : Nat} (hi : i ≤ 8) : receivedRead f 9 i = frameRead f i :=
  if_pos (show i < 9 by omega)

/-- Settles O15: with nine bytes the two buffers are the same frame, and with another count PARSE reads neither. -/
theorem parseReadsOnlyReceivedBytes : Obligations.ParseReadsOnlyReceivedBytes := by
  intro en din din' dlen s hread
  by_cases hn : dlen = 9
  · subst hn
    have hframe : din = din' := frame_eq_of_frameRead_eq fun i hi => by
      rw [← receivedRead_nine din hi, ← receivedRead_nine din' hi, hread i]
    rw [hframe]
  · exact congrArg Host.Outcome.next ((parseInto_of_length_ne hn din s).trans (parseInto_of_length_ne hn din' s).symm)

/-! ### A write of one byte of an accepted response (R87, R88, R91; 90_conflicts.md C5) -/

section
variable {f f' : Frame} {j : Nat} {b v : Byte} (hw : frameWrite f j v = some f')
include hw

theorem header_frameWrite (hj : 2 ≤ j) : f'.b0 = f.b0 ∧ f'.b1 = f.b1 :=
  ⟨Option.some.inj (frameRead_frameWrite_other hw (j := 0) (by omega)),
    Option.some.inj (frameRead_frameWrite_other hw (j := 1) (by omega))⟩

/-- The reading is bytes 2 and 3 and no other (R91). -/
theorem ppmOf_frameWrite (hj : 4 ≤ j) : ppmOf f' = ppmOf f := by
  have h2 : f'.b2 = f.b2 := Option.some.inj (frameRead_frameWrite_other hw (j := 2) (by omega))
  have h3 : f'.b3 = f.b3 := Option.some.inj (frameRead_frameWrite_other hw (j := 3) (by omega))
  rw [ppmOf, ppmOf, h2, h3]

/-- Bytes 0 and 1 of a response each have one right value (R87). -/
theorem not_header_frameWrite (hh : f.b0 = 0xFF ∧ f.b1 = 0x86) (hj : j ≤ 1) (hr : frameRead f j = some b) (hv : v ≠ b) :
    ¬(f'.b0 = 0xFF ∧ f'.b1 = 0x86) := by
  obtain ⟨h0, h1⟩ := hh
  rintro ⟨h0', h1'⟩
  match j, hj, hr, hw with
  | 0, _, hr, hw =>
    cases hr
    cases hw
    exact hv (h0'.trans h0.symm)
  | 1, _, hr, hw =>
    cases hr
    cases hw
    exact hv (h1'.trans h1.symm)

/-- A change of one byte behind the header passes the header check and is caught by the checksum (R88, R91). -/
theorem parseInto_frameWrite_st_eq_stCks (hh : f.b0 = 0xFF ∧ f.b1 = 0x86) (hc : f.b8 = cksum f) (hj : 2 ≤ j)
    (hr : frameRead f j = some b) (hv : v ≠ b) (s : State) : (parseInto 9 f' s).st = stCks := by
  obtain ⟨h0, h1⟩ := header_frameWrite hw hj
  have hinvalid : ckValid f' = false :=
    ckValid_frameWrite_eq_false ((ckValid_iff f).2 hc) (Nat.le_of_succ_le hj) hr hw hv
  have hc' : f'.b8 ≠ cksum f' := fun h => Bool.false_ne_true (hinvalid.symm.trans ((ckValid_iff f').2 h))
  rw [← h0, ← h1] at hh
  rw [parseInto_of_checksum_ne hh hc', State.writeParse_st]

end

/-- Settles O16: a reserved byte lies behind the header and the reading, and byte 8 behind the reserved bytes. -/
theorem reservedBytesAreSummedAndNotRead : Obligations.ReservedBytesAreSummedAndNotRead := by
  intro en f f' f'' j b v s t hj _ hr hv hw hw8 ht hst
  obtain rfl : parseInto 9 f s = t := Host.Outcome.next.inj ht
  obtain ⟨-, hh, hc⟩ := (parseInto_st_eq_stOk_iff 9 f s).1 hst
  refine ⟨⟨_, rfl, parseInto_frameWrite_st_eq_stCks hw hh hc (by omega) hr hv s⟩, parseInto 9 f'' s, rfl, ?_⟩
  have hh'' : f''.b0 = 0xFF ∧ f''.b1 = 0x86 := by
    obtain ⟨h0, h1⟩ := header_frameWrite hw (by omega)
    obtain ⟨h0', h1'⟩ := header_frameWrite hw8 (by omega)
    rwa [h0', h1', h0, h1]
  have hc'' : f''.b8 = cksum f'' := (ckValid_iff f'').1 (checksumRoundTrip f' f'' hw8)
  have hppm : ppmOf f'' = ppmOf f := (ppmOf_frameWrite hw8 (by omega)).trans (ppmOf_frameWrite hw hj)
  rw [parseInto_of_response hh'' hc'', parseInto_of_response hh hc]
  exact ⟨rfl, hppm⟩

/-- Settles O17: a flipped bit changes its byte, in the header or behind it. -/
theorem noSingleBitMutationOfAResponseIsAccepted : Obligations.NoSingleBitMutationOfAResponseIsAccepted := by
  intro en f f' j k b s t hk hr hw ht hst
  obtain rfl : parseInto 9 f s = t := Host.Outcome.next.inj ht
  obtain ⟨-, hh, hc⟩ := (parseInto_st_eq_stOk_iff 9 f s).1 hst
  have hv := xor_bit_ne_self b hk
  refine ⟨parseInto 9 f' s, rfl, ?_⟩
  split_ifs with hj
  · rw [parseInto_of_not_header (not_header_frameWrite hw hh hj hr hv), State.writeParse_st]
  · exact parseInto_frameWrite_st_eq_stCks hw hh hc (by omega) hr hv s

end Sys2Proof.Machine
end

section
/-! The requester-side transactions (43_transactions.md R98 to R102, R106): where one stops, what one leaves, and READCO2 as
its parts. -/

namespace Sys2Proof.Machine

/-! ### What every transaction does (R106; logs 7, 8, 9) -/

/-- A transaction hands one frame over in an open session, and what follows a whole `write` always completes. -/
theorem exec_transaction_eq {i : Instr} (hi : i = .readco2 ∨ i = .calzero ∨ ∃ e, i = .setacal e) :
    ∃ f k, (∀ t, ∃ u, k t = .next u) ∧ ∀ s, exec i s = inSession s (transmit (s.writeBuild f) k) := by
  obtain rfl | rfl | ⟨e, rfl⟩ := hi
  · refine ⟨_, receive, fun t => ?_, fun _ => rfl⟩
    obtain ⟨_, h⟩ | ⟨_, _, _, h⟩ := receive_cases t <;> exact ⟨_, h⟩
  · exact ⟨_, _, fun _ => ⟨_, rfl⟩, fun _ => rfl⟩
  · exact ⟨_, _, fun _ => ⟨_, rfl⟩, fun _ => rfl⟩

/-- A transaction is refused, stuck on a partial write, or complete, by what the transport says. -/
theorem exec_transaction_cases {i : Instr} (hi : i = .readco2 ∨ i = .calzero ∨ ∃ e, i = .setacal e) (s : State) :
    (s.transport.session ≠ .opened ∧ exec i s = .refused .transportNotOpen) ∨
    (s.transport.session = .opened ∧ (∃ n, s.transport.writeAnswer = .count n ∧ n ≠ 9) ∧ exec i s = .fault .partialWrite) ∨
    (s.transport.session = .opened ∧ (∀ n, s.transport.writeAnswer = .count n → n = 9) ∧ ∃ t, exec i s = .next t) := by
  obtain ⟨f, k, hk, hexec⟩ := exec_transaction_eq hi
  rw [hexec]
  obtain ⟨hs, h⟩ | ⟨hs, h⟩ := inSession_cases s (transmit (s.writeBuild f) k) <;> rw [h]
  · obtain ⟨hw, ht⟩ | ⟨hw, ht⟩ | ⟨n, hn, hw, ht⟩ := transmit_cases (s.writeBuild f) k <;>
      rw [State.writeBuild_transport] at hw <;> rw [ht, hw]
    · exact .inr (.inr ⟨hs, nofun, _, rfl⟩)
    · exact .inr (.inr ⟨hs, fun _ hn => (WriteAnswer.count.inj hn).symm, hk _⟩)
    · exact .inr (.inl ⟨hs, ⟨n, rfl, hn⟩, rfl⟩)
  · exact .inl ⟨hs, rfl⟩

/-- Settles O37: the three ends of a transaction exclude each other. -/
theorem transactionsStopOnlyAsNamed : Obligations.TransactionsStopOnlyAsNamed := by
  intro i s hi
  obtain ⟨hs, h⟩ | ⟨hs, ⟨n, hw, hn⟩, h⟩ | ⟨hs, hw, t, h⟩ := exec_transaction_cases hi s <;> rw [h]
  · exact ⟨fun _ => rfl, fun _ ho => absurd ho hs, nofun, fun _ hr => ⟨(Host.Outcome.refused.inj hr).symm, hs⟩⟩
  · exact ⟨absurd hs, fun _ _ _ _ => rfl, fun _ hf => ⟨(Host.Outcome.fault.inj hf).symm, hs, n, hw, hn⟩, nofun⟩
  · exact ⟨absurd hs, fun n _ hc hn => absurd (hw n hc) hn, nofun, nofun⟩

/-! ### IOError (R102) -/

/-- A protocol error or a reading is no error of the transport (60_exceptions.md R109). -/
theorem parseResult_ne_ioError (s : State) : parseResult s ≠ .error .ioError := by
  unfold parseResult
  split <;> nofun

/-- Where a transaction ends with IOError, nothing was parsed. -/
theorem Transacted.same_of_ioError {s t : State} (h : Transacted s t) (hr : t.result = some (.error .ioError)) :
    SameParse s t ∧ SameCheck s t := by
  cases h with
  | writeFailed | readFailed => exact ⟨⟨rfl, rfl, rfl, rfl⟩, rfl, rfl⟩
  | sent => cases hr
  | parsed => exact absurd (Option.some.inj hr) (parseResult_ne_ioError _)

/-- Settles O38: the lemma `Transacted.same_of_ioError`. -/
theorem transportErrorsPassTheCodecBy : Obligations.TransportErrorsPassTheCodecBy := by
  intro i s t hi hexec hr
  have hgroup : groupOf i = none := by obtain rfl | rfl | ⟨e, rfl⟩ := hi <;> rfl
  cases exec_cases hexec with
  | build _ _ hg | check _ hg | parse _ _ hg => exact nomatch hgroup.symm.trans hg
  | transaction _ _ ht => exact ht.same_of_ioError hr

/-! ### CALZERO and SETACAL (R99 to R101) -/

/-- A transaction that builds a frame and hands it over, and no more: its two ends, with nothing read back. -/
theorem sent_only {i : Instr} {s : State} {f : Frame}
    (hi : exec i s = transmit (s.writeBuild f) fun t => .next (t.withResult .success)) :
    (s.transport.writeAnswer = .count 9 →
      ∃ t, exec i s = .next t ∧ t.result = some .success ∧ t.transport = s.transport.afterWrite (frameBytes f) ∧
        t.txf = f ∧ t.txv = true ∧ SameCheck s t ∧ SameParse s t ∧ t.agenda = s.agenda) ∧
    (s.transport.writeAnswer = .ioError →
      ∃ t, exec i s = .next t ∧ t.result = some (.error .ioError) ∧ t.transport = s.transport.afterWrite (frameBytes f) ∧
        t.txf = f ∧ t.txv = true ∧ SameCheck s t ∧ SameParse s t ∧ t.agenda = s.agenda) := by
  rw [hi]
  constructor <;> intro hw
  · exact ⟨_, transmit_full (s := s.writeBuild f) _ hw, rfl, rfl, rfl, rfl, ⟨rfl, rfl⟩, ⟨rfl, rfl, rfl, rfl⟩, rfl⟩
  · exact ⟨_, transmit_ioError (s := s.writeBuild f) _ hw, rfl, rfl, rfl, rfl, ⟨rfl, rfl⟩, ⟨rfl, rfl, rfl, rfl⟩, rfl⟩

/-- Settles O35: CALZERO is the sending of its frame. -/
theorem calzeroIsFireAndForget : Obligations.CalzeroIsFireAndForget := fun _ hs =>
  sent_only (i := .calzero) (execCalzero_opened hs)

/-- Settles O36: SETACAL is the sending of the frame that its operand chooses. -/
theorem setacalIsFireAndForget : Obligations.SetacalIsFireAndForget := fun e _ hs =>
  sent_only (i := .setacal e) (execSetacal_opened e hs)

/-! ### READCO2 (R98) -/

/-- The result that each status gives (R98 step 5). -/
theorem parseResult_eq (s : State) :
    (s.st = stOk → parseResult s = .reading s.ppm) ∧
    (s.st = stLen → parseResult s = .error (.protocol (.length s.elen))) ∧
    (s.st = stHdr → parseResult s = .error (.protocol (.header s.eraw))) ∧
    (s.st = stCks → parseResult s = .error (.protocol .checksum)) := by
  unfold parseResult errorNamed
  refine ⟨?_, ?_, ?_, ?_⟩ <;> intro h <;> rw [h] <;> rfl

section
variable {s : State} (hs : s.transport.session = .opened)
include hs

theorem exec_readco2_write_ioError (hw : s.transport.writeAnswer = .ioError) :
    exec .readco2 s = .next ((s.writeBuild readCo2Frame).handOver.withResult (.error .ioError)) :=
  (execReadco2_opened hs).trans (transmit_ioError (s := s.writeBuild readCo2Frame) receive hw)

variable (hw : s.transport.writeAnswer = .count 9)
include hw

/-- After a whole `write`, READCO2 is what it receives. -/
theorem exec_readco2_written : exec .readco2 s = receive (s.writeBuild readCo2Frame).handOver :=
  (execReadco2_opened hs).trans (transmit_full (s := s.writeBuild readCo2Frame) receive hw)

theorem exec_readco2_read_ioError (hr : (s.transport.afterWrite (frameBytes readCo2Frame)).readAnswer = .ioError) :
    exec .readco2 s = .next ((s.writeBuild readCo2Frame).handOver.collect.withResult (.error .ioError)) :=
  (exec_readco2_written hs hw).trans (receive_ioError hr)

theorem exec_readco2_parsed {n : Fin 10} {buf : Frame}
    (hr : (s.transport.afterWrite (frameBytes readCo2Frame)).readAnswer = .count n buf) :
    exec .readco2 s =
      .next ((parseInto (dlenOf n) buf (s.writeBuild readCo2Frame).handOver.collect).withResult
        (parseResult (parseInto (dlenOf n) buf (s.writeBuild readCo2Frame).handOver.collect))) :=
  (exec_readco2_written hs hw).trans (receive_count hr)

end

/-- Settles O34: one clause per end of READCO2. In the last one, a PARSE from either state writes the same values, and
`parseResult_eq` says what each status returns. -/
theorem readco2FollowsItsSequence : Obligations.Readco2FollowsItsSequence := by
  intro s hs sent
  refine ⟨fun hw => ?writeFails, fun hw hr => ?readFails, fun n buf hw hr => ?parses⟩
  case writeFails =>
    exact ⟨_, exec_readco2_write_ioError hs hw, rfl, rfl, rfl, rfl, ⟨rfl, rfl⟩, ⟨rfl, rfl, rfl, rfl⟩, rfl⟩
  case readFails =>
    exact ⟨_, exec_readco2_read_ioError hs hw hr, rfl, rfl, rfl, rfl, ⟨rfl, rfl⟩, ⟨rfl, rfl, rfl, rfl⟩, rfl⟩
  case parses =>
    have hexec := exec_readco2_parsed hs hw hr
    obtain ⟨hok, hlen, hhdr, hcks⟩ := parseResult_eq (parseInto (dlenOf n) buf (s.writeBuild readCo2Frame).handOver.collect)
    obtain ⟨st, p, e, hparse⟩ := parseInto_eq_writeParse (dlenOf n) buf
    rw [hparse] at hexec hok hlen hhdr hcks
    exact ⟨_, _, hexec, congrArg Host.Outcome.next (hparse s), ⟨rfl, rfl, rfl, rfl⟩, rfl, rfl, rfl, ⟨rfl, rfl⟩, rfl,
      fun h => congrArg some (hok h), fun h => congrArg some (hlen h), fun h => congrArg some (hhdr h),
      fun h => congrArg some (hcks h)⟩

/-- Settles O40: both write the same frame to the BUILD group, and then the same PARSE to the PARSE group. -/
theorem readco2RefinesBldrdThenParse : Obligations.Readco2RefinesBldrdThenParse := by
  intro s n buf hs hw hr
  have hexec := exec_readco2_parsed hs hw hr
  obtain ⟨st, p, e, hparse⟩ := parseInto_eq_writeParse (dlenOf n) buf
  rw [hparse] at hexec
  have hbldrd : step (s.withAgenda ⟨[.request (.port 0x0 Frame.zero 0), .request (.port 0x4 buf (dlenOf n))], none⟩) =
      .next ((s.withAgenda ⟨[.request (.port 0x4 buf (dlenOf n))], none⟩).writeBuild readCo2Frame) :=
    exec_bldrd ⟨false, Frame.zero, 0⟩ _
  exact ⟨_, _, _, hexec, hbldrd, congrArg Host.Outcome.next (hparse _), ⟨rfl, rfl⟩, ⟨rfl, rfl⟩, rfl, rfl, rfl, rfl⟩

end Sys2Proof.Machine
end

section
/-! The requester's session: `open` and `close` (43_transactions.md R97, R106; 60_exceptions.md R113; log 9), one equation per
answer and one outside the order of R106. -/

namespace Sys2Proof.Machine

section
variable {s : State}

theorem runOpen_handle (hs : s.transport.session = .closed) (ha : s.transport.openAnswer = .handle) :
    runOpen s = .next ((s.withTransport (s.transport.afterOpen .opened)).withResult .success) := by
  simp [runOpen, hs, ha]

theorem runOpen_connectionError (hs : s.transport.session = .closed) (ha : s.transport.openAnswer = .connectionError) :
    runOpen s =
      .next ((s.withTransport (s.transport.afterOpen .openFailed)).withResult (.error .connectionError)) := by
  simp [runOpen, hs, ha]

theorem runOpen_not_closed (hs : s.transport.session ≠ .closed) : runOpen s = .refused .sessionOrder := if_neg hs

theorem runClose_closed (hs : s.transport.session = .opened) (ha : s.transport.closeAnswer = .closed) :
    runClose s = .next ((s.withTransport (s.transport.afterClose .closed)).withResult .success) := by
  simp [runClose, hs, ha]

theorem runClose_ioError (hs : s.transport.session = .opened) (ha : s.transport.closeAnswer = .ioError) :
    runClose s = .next ((s.withTransport (s.transport.afterClose .closeFailed)).withResult (.error .ioError)) := by
  simp [runClose, hs, ha]

theorem runClose_not_opened (hs : s.transport.session ≠ .opened) : runClose s = .refused .sessionOrder := if_neg hs

end

/-- Changing the transport and the result touches no register. -/
theorem sameRegisters_withTransport_withResult (s : State) (tr : Transport) (r : CallResult) :
    SameRegisters s ((s.withTransport tr).withResult r) :=
  ⟨⟨rfl, rfl⟩, ⟨rfl, rfl⟩, rfl, rfl, rfl, rfl⟩

/-- Settles O41: one clause per equation of `runOpen` and `runClose`. -/
theorem openAndCloseFollowTheSession : Obligations.OpenAndCloseFollowTheSession := fun s =>
  ⟨fun hs ha => ⟨_, runOpen_handle hs ha, rfl, rfl, sameRegisters_withTransport_withResult s _ _⟩,
    fun hs ha => ⟨_, runOpen_connectionError hs ha, rfl, rfl, sameRegisters_withTransport_withResult s _ _⟩,
    runOpen_not_closed,
    fun hs ha => ⟨_, runClose_closed hs ha, rfl, rfl, sameRegisters_withTransport_withResult s _ _⟩,
    fun hs ha => ⟨_, runClose_ioError hs ha, rfl, rfl, sameRegisters_withTransport_withResult s _ _⟩,
    runClose_not_opened⟩

end Sys2Proof.Machine
end

section
/-! Events and runs (43_transactions.md R104): what an admitted and a reserved request word do, one step, and runs over a
sequence and over an agenda. -/

namespace Sys2Proof.Machine

/-! ### One event -/

theorem runRequest_ok {r : Request} {i : Instr} (h : decode r = .ok i) (s : State) : runRequest r s = exec i s := by
  rw [runRequest, h]

theorem runRequest_reject {r : Request} {e : Reject} (h : decode r = .reject e) (s : State) :
    runRequest r s = .refused (.rejected e) := by
  rw [runRequest, h]

/-- Settles O42: the step runs the event that the agenda gives, and a request by what it decodes to. -/
theorem stepRunsTheDecodedInstruction : Obligations.StepRunsTheDecodedInstruction := by
  refine ⟨fun s rest => ⟨fun r i hnext hd _ => ?ok, fun r e hnext hd => ?reject, step_next, step_next, step_next, step_ended⟩,
    Agenda.next_listed, Agenda.next_free, Agenda.next_empty⟩
  case ok => exact (step_next hnext).trans (runRequest_ok hd _)
  case reject => exact (step_next hnext).trans (runRequest_reject hd _)

/-- The select code of an admitted word is that of an operation of the FC (30_encoding.md R57, R58). -/
theorem groupOf_selected {w : BitVec 4} (hw : (w &&& 0x7).toNat ≤ 4) (o : Operands) :
    ∃ g, groupOf (selected (opField w) o) = some g := by
  have hop : opField w ∈ [opBldrd, opBldzero, opBldacal, opCksum, opParse] := by
    revert w
    decide
  simp only [List.mem_cons, List.not_mem_nil, or_false] at hop
  obtain h | h | h | h | h := hop <;> rw [h] <;> exact ⟨_, rfl⟩

/-- An admitted request completes, and changes nothing outside the FC. -/
theorem runEvent_admitted {e : Event} (he : Admitted e) (s : State) : ∃ t, runEvent e s = .next t ∧ SameOutside s t := by
  obtain ⟨w, din, dlen, rfl, hw⟩ := he
  obtain ⟨g, hg⟩ := groupOf_selected hw ⟨enField w, din, dlen⟩
  obtain ⟨f, hf, hexec⟩ := exec_eq_next_of_groupOf hg
  exact ⟨f s, (runRequest_port w din dlen s).trans (hexec s), hf.sameOutside s⟩

/-- Settles O27: the lemma `runEvent_admitted`, with the request taken off the agenda. -/
theorem everyAdmittedRequestCompletes : Obligations.EveryAdmittedRequestCompletes := by
  intro w din dlen s rest hw hnext
  rw [step_next hnext]
  exact runEvent_admitted ⟨w, din, dlen, rfl, hw⟩ (s.withAgenda rest)

/-- A word that is not admitted selects a reserved row, and is refused (30_encoding.md R62). -/
theorem runRequest_reserved {w : BitVec 4} (hw : 4 < (w &&& 0x7).toNat) (din : Frame) (dlen : BitVec 4) (s : State) :
    runRequest (.port w din dlen) s = .refused .reservedRequest := by
  have hop : opField w ∈ [opReserved5, 6, 7] := by
    revert w
    decide
  simp only [List.mem_cons, List.not_mem_nil, or_false] at hop
  rw [runRequest_port]
  obtain h | h | h := hop <;> rw [h] <;> rfl

/-! ### Runs over a sequence (R104) -/

section
variable {q : Nat → Event} {len : Option Nat} {s : State} {n : Nat}

theorem runOver_succ_event {t : State} {e : Event} (ht : runOver q len s n = .next t) (he : eventAt q len n = some e) :
    runOver q len s (n + 1) = runEvent e t := by
  simp [runOver, ht, he]

theorem runOver_succ_ended (he : eventAt q len n = none) : runOver q len s (n + 1) = runOver q len s n := by
  rw [runOver, he]
  cases runOver q len s n <;> rfl

theorem runOver_succ_refused {r : Refusal} (h : runOver q len s n = .refused r) :
    runOver q len s (n + 1) = .refused r := by
  simp [runOver, h]

theorem runOver_succ_fault {f : Fault} (h : runOver q len s n = .fault f) : runOver q len s (n + 1) = .fault f := by
  simp [runOver, h]

/-- A sequence that has ended stays ended. -/
theorem eventAt_none_of_le {m : Nat} (h : eventAt q len n = none) (hnm : n ≤ m) : eventAt q len m = none := by
  cases len with
  | none => cases h
  | some k =>
    simp only [eventAt, ite_eq_right_iff, reduceCtorEq, imp_false] at h ⊢
    omega

theorem runOver_of_ended {m : Nat} (h : eventAt q len n = none) (hnm : n ≤ m) : runOver q len s m = runOver q len s n := by
  induction m, hnm using Nat.le_induction with
  | base => rfl
  | succ m hnm ih => exact (runOver_succ_ended (eventAt_none_of_le h hnm)).trans ih

theorem runOver_of_refused {r : Refusal} {m : Nat} (h : runOver q len s n = .refused r) (hnm : n ≤ m) :
    runOver q len s m = .refused r := by
  induction m, hnm using Nat.le_induction with
  | base => exact h
  | succ m _ ih => exact runOver_succ_refused ih

end

/-- A run over admitted requests always has a next state, and leaves what is outside the FC as it was. -/
theorem runOver_admitted {q : Nat → Event} {len : Option Nat} (hq : ∀ n e, eventAt q len n = some e → Admitted e)
    (s : State) (n : Nat) : ∃ t, runOver q len s n = .next t ∧ SameOutside s t := by
  induction n with
  | zero => exact ⟨s, rfl, rfl, rfl, rfl⟩
  | succ n ih =>
    obtain ⟨t, ht, ha, htr, hr⟩ := ih
    cases he : eventAt q len n with
    | none => exact ⟨t, (runOver_succ_ended he).trans ht, ha, htr, hr⟩
    | some e =>
      obtain ⟨u, hu, ha', htr', hr'⟩ := runEvent_admitted (hq n e he) t
      exact ⟨u, (runOver_succ_event ht he).trans hu, ha'.trans ha, htr'.trans htr, hr'.trans hr⟩

/-- Settles O50: the equations of one step of a run, and what is kept along it. -/
theorem runsTakeOneStepPerRequest : Obligations.RunsTakeOneStepPerRequest := by
  intro q len s
  refine ⟨rfl, fun n t r he ht => runOver_succ_event ht he, fun n m => runOver_of_ended, fun hq n => runOver_admitted hq s n,
    fun n t w din dlen he hw ht m hnm => ?reserved⟩
  case reserved =>
    exact runOver_of_refused ((runOver_succ_event ht he).trans (runRequest_reserved hw din dlen t)) hnm

/-! ### The machine and its agenda (logs 1, 12, 17) -/

theorem step_withAgenda_drop (t : State) (a : Agenda) {n : Nat} {e : Event} (he : eventAt a.event a.length n = some e) :
    step (t.withAgenda (a.drop n)) = onNext (·.withAgenda (a.drop (n + 1))) (runEvent e t) := by
  have hnext : (a.drop n).next = some (e, a.drop (n + 1)) := by rw [Agenda.next_drop, he, Option.map_some]
  rw [step_next (s := t.withAgenda (a.drop n)) hnext]
  exact runEvent_withAgenda e t (a.drop (n + 1))

/-- Before its end a sequence has an event. -/
theorem eventAt_of_lt (q : Nat → Event) {len : Option Nat} {n : Nat} (h : ∀ k, len = some k → n < k) :
    eventAt q len n = some (q n) := by
  cases len with
  | none => rfl
  | some k => exact if_pos (h k rfl)

theorem steps_eq_runOver (s : State) {n : Nat} (hn : ∀ k, s.agenda.length = some k → n ≤ k) :
    steps s n = onNext (·.withAgenda (s.agenda.drop n)) (runOver s.agenda.event s.agenda.length s n) := by
  induction n with
  | zero =>
    rw [runOver, onNext_next, Agenda.drop_zero]
    rfl
  | succ n ih =>
    have he := eventAt_of_lt s.agenda.event hn
    have hsteps := ih fun k hk => Nat.le_of_succ_le (hn k hk)
    cases h : runOver s.agenda.event s.agenda.length s n with
    | next t =>
      rw [h, onNext_next] at hsteps
      rw [steps, hsteps, runOver_succ_event h he]
      exact step_withAgenda_drop t s.agenda he
    | fault f =>
      rw [h, onNext_fault] at hsteps
      rw [steps, hsteps, runOver_succ_fault h, onNext_fault]
    | refused r =>
      rw [h, onNext_refused] at hsteps
      rw [steps, hsteps, runOver_succ_refused h, onNext_refused]

/-- The agenda that is left after `n` steps. -/
theorem agenda_of_steps {s t : State} {n : Nat} (hn : ∀ k, s.agenda.length = some k → n ≤ k) (h : steps s n = .next t) :
    t.agenda = s.agenda.drop n := by
  rw [steps_eq_runOver s hn] at h
  cases hrun : runOver s.agenda.event s.agenda.length s n <;> rw [hrun] at h <;> cases h
  rfl

theorem exec_transaction_ne_nothingPresented {i : Instr} (hi : i = .readco2 ∨ i = .calzero ∨ ∃ e, i = .setacal e)
    (s : State) : exec i s ≠ .refused .nothingPresented := by
  obtain ⟨_, h⟩ | ⟨_, _, h⟩ | ⟨_, _, _, h⟩ := exec_transaction_cases hi s <;> rw [h] <;> nofun

theorem exec_ne_nothingPresented (i : Instr) (s : State) : exec i s ≠ .refused .nothingPresented := by
  cases i with
  | readco2 => exact exec_transaction_ne_nothingPresented (.inl rfl) s
  | calzero => exact exec_transaction_ne_nothingPresented (.inr (.inl rfl)) s
  | setacal e => exact exec_transaction_ne_nothingPresented (.inr (.inr ⟨e, rfl⟩)) s
  | _ => nofun

/-- An event that is run may be refused, but never for want of an event. -/
theorem runEvent_ne_nothingPresented (e : Event) (s : State) : runEvent e s ≠ .refused .nothingPresented := by
  cases e with
  | request r =>
    show runRequest r s ≠ _
    cases hd : decode r with
    | ok i =>
      rw [runRequest_ok hd]
      exact exec_ne_nothingPresented i s
    | reject e =>
      rw [runRequest_reject hd]
      nofun
  | reset => nofun
  | openTransport =>
    show runOpen s ≠ _
    by_cases hs : s.transport.session = .closed
    · cases ha : s.transport.openAnswer with
      | handle =>
        rw [runOpen_handle hs ha]
        nofun
      | connectionError =>
        rw [runOpen_connectionError hs ha]
        nofun
    · rw [runOpen_not_closed hs]
      nofun
  | closeTransport =>
    show runClose s ≠ _
    by_cases hs : s.transport.session = .opened
    · cases ha : s.transport.closeAnswer with
      | closed =>
        rw [runClose_closed hs ha]
        nofun
      | ioError =>
        rw [runClose_ioError hs ha]
        nofun
    · rw [runClose_not_opened hs]
      nofun

/-- Settles O51: no event reads the agenda, so the steps are the run; and what is left of the agenda has a next event exactly
where the sequence does. -/
theorem theMachineRunsItsAgenda : Obligations.TheMachineRunsItsAgenda := by
  refine ⟨fun s n hn => steps_eq_runOver s hn, fun s t k hk h => ?finite, fun s t n hinf h => ?infinite⟩
  case finite =>
    have ht : t.agenda = s.agenda.drop k := agenda_of_steps (fun m hm => (Option.some.inj (hk.symm.trans hm)).le) h
    have hended : eventAt s.agenda.event s.agenda.length k = none := by
      rw [hk]
      exact if_neg (lt_irrefl k)
    exact step_ended (by rw [ht, Agenda.next_drop, hended, Option.map_none])
  case infinite =>
    have ht : t.agenda = s.agenda.drop n := agenda_of_steps (fun k hk => nomatch hinf.symm.trans hk) h
    have hnext : t.agenda.next = some (s.agenda.event n, s.agenda.drop (n + 1)) := by
      rw [ht, Agenda.next_drop, hinf]
      rfl
    rw [step_next hnext]
    exact runEvent_ne_nothingPresented _ _

end Sys2Proof.Machine
end

section
/-! Exceptions (60_exceptions.md): a reading is never returned for a bad response (R115), and an error leaves no trace for a
later PARSE (R120). -/

namespace Sys2Proof.Machine

/-! ### None swallowed (R115; 43_transactions.md R98 step 5) -/

/-- What is returned after a PARSE is a reading exactly where all three checks passed, and then it is that of the frame. -/
theorem parseResult_parseInto_eq_reading_iff (n : BitVec 4) (f : Frame) (s : State) (p : BitVec 16) :
    parseResult (parseInto n f s) = .reading p ↔ n = 9 ∧ (f.b0 = 0xFF ∧ f.b1 = 0x86) ∧ f.b8 = cksum f ∧ ppmOf f = p := by
  obtain ⟨hok, hlen, hhdr, hcks⟩ := parseResult_eq (parseInto n f s)
  obtain ⟨hn, hp⟩ | ⟨_, hh, hp⟩ | ⟨_, _, hc, hp⟩ | ⟨hn, hh, hc, hp⟩ := parseInto_cases n f s <;>
    rw [hp] at hok hlen hhdr hcks ⊢
  · rw [hlen rfl]
    exact iff_of_false nofun fun ⟨h, _⟩ => hn h
  · rw [hhdr rfl]
    exact iff_of_false nofun fun ⟨_, h, _⟩ => hh h
  · rw [hcks rfl]
    exact iff_of_false nofun fun ⟨_, _, h, _⟩ => hc h
  · rw [hok rfl, CallResult.reading.injEq]
    exact ⟨fun h => ⟨hn, hh, hc, h⟩, fun ⟨_, _, _, h⟩ => h⟩

/-- The counts that `read` may answer fit into `DLEN`, so no other count passes for nine. -/
theorem dlenOf_eq_nine_iff (n : Fin 10) : dlenOf n = 9 ↔ n = 9 := by
  revert n
  decide

/-- Settles O39: of the ends of a transaction only a PARSE can return a reading, and then the three checks passed. -/
theorem aReadingIsNeverReturnedForABadResponse : Obligations.AReadingIsNeverReturnedForABadResponse := by
  intro s t p hexec hresult
  cases execReadco2_cases hexec with
  | writeFailed | sent | readFailed => cases hresult
  | parsed n buf hr =>
    obtain ⟨hn, ⟨h0, h1⟩, hc, rfl⟩ := (parseResult_parseInto_eq_reading_iff _ _ _ _).1 (Option.some.inj hresult)
    exact ⟨n, buf, hr, (dlenOf_eq_nine_iff n).1 hn, h0, h1, hc, ppmOf_toNat buf⟩

/-! ### No trace (R120; 42_decode.md R96) -/

/-- A write of a group covers every earlier write of the same group. -/
theorem Group.Writes.overwrites {g : Group} {w w' : State → State} (hw : g.Writes w) (hw' : g.Writes w') (s : State) :
    w (w' s) = w s := by
  cases hw with
  | build => cases hw' with | build => rfl
  | check => cases hw' with | check => rfl
  | parse => cases hw' with | parse => rfl

/-- Settles O21: both operations are writes of the PARSE group. -/
theorem anEarlierParseLeavesNoTrace : Obligations.AnEarlierParseLeavesNoTrace := by
  intro o o' s t h
  obtain rfl : parseInto o.dlen o.din s = t := Host.Outcome.next.inj h
  exact congrArg Host.Outcome.next ((writes_parseInto o'.dlen o'.din).overwrites (writes_parseInto o.dlen o.din) s)

end Sys2Proof.Machine
end

section
/-! Reset and hazards (70_reset_and_hazards.md): the one accepted frame for each choice of data bytes (R137), that nothing but a
reset undoes a PARSE or a build (R127), and what the two guards of a requester are worth (R133). -/

namespace Sys2Proof.Machine

/-! ### Accepted buffers (R137) -/

/-- The response with the given bytes 2 to 7, before its checksum (30_encoding.md R52). -/
def responseBody (b2 b3 b4 b5 b6 b7 : Byte) : Frame := ⟨startByte, opcReadCo2, b2, b3, b4, b5, b6, b7, 0x00⟩

/-- The response with the given bytes 2 to 7: the body with its checksum at index 8. -/
def response (b2 b3 b4 b5 b6 b7 : Byte) : Frame :=
  { responseBody b2 b3 b4 b5 b6 b7 with b8 := cksum (responseBody b2 b3 b4 b5 b6 b7) }

/-- With the header in place, bytes 1 to 7 are those of the body, and so is the checksum, which reads no other byte. -/
theorem eq_response_iff (f : Frame) :
    f = response f.b2 f.b3 f.b4 f.b5 f.b6 f.b7 ↔ (f.b0 = 0xFF ∧ f.b1 = 0x86) ∧ f.b8 = cksum f := by
  obtain ⟨b0, b1, b2, b3, b4, b5, b6, b7, b8⟩ := f
  constructor
  · intro h
    simp only [response, responseBody, Frame.mk.injEq] at h
    obtain ⟨rfl, rfl, -, -, -, -, -, -, rfl⟩ := h
    exact ⟨⟨rfl, rfl⟩, rfl⟩
  · rintro ⟨⟨rfl, rfl⟩, hc⟩
    exact Frame.ext rfl rfl rfl rfl rfl rfl rfl rfl hc

theorem exec_parse_accepts_iff (en : Bool) (f : Frame) (s : State) :
    (∃ t, exec (.parse ⟨en, f, 9⟩) s = .next t ∧ t.st = stOk) ↔ f = response f.b2 f.b3 f.b4 f.b5 f.b6 f.b7 := by
  have hexec : exec (.parse ⟨en, f, 9⟩) s = .next (parseInto 9 f s) := rfl
  simp only [hexec, Host.Outcome.next.injEq, exists_eq_left']
  rw [parseInto_st_eq_stOk_iff, eq_response_iff]
  exact and_iff_right rfl

/-- Settles O18: the accepted frame is `response` of its own bytes 2 to 7. -/
theorem everyDataChoiceHasExactlyOneAcceptedFrame : Obligations.EveryDataChoiceHasExactlyOneAcceptedFrame := by
  intro en b2 b3 b4 b5 b6 b7 s
  refine ⟨response b2 b3 b4 b5 b6 b7, ⟨rfl, rfl, rfl, rfl, rfl, rfl, ?accepted⟩, ?unique⟩
  case accepted => exact (exec_parse_accepts_iff en _ s).2 rfl
  case unique =>
    rintro f ⟨rfl, rfl, rfl, rfl, rfl, rfl, hf⟩
    exact (exec_parse_accepts_iff en f s).1 hf

/-! ### Only a reset undoes a PARSE or a build (R127) -/

/-- `t` is at `ST_NONE` or at `TXV = 0` only where `s` was: nothing between them undid a PARSE or a build. -/
def NothingUndone (s t : State) : Prop := (t.st = stNone → s.st = stNone) ∧ (t.txv = false → s.txv = false)

theorem parseInto_st_ne_stNone (n : BitVec 4) (f : Frame) (s : State) : (parseInto n f s).st ≠ stNone := by
  obtain ⟨_, hp⟩ | ⟨_, _, hp⟩ | ⟨_, _, _, hp⟩ | ⟨_, _, _, hp⟩ := parseInto_cases n f s <;> rw [hp] <;> exact nofun

theorem parseInto_txv (n : BitVec 4) (f : Frame) (s : State) : (parseInto n f s).txv = s.txv := by
  obtain ⟨_, htxv⟩ := (writes_parseInto n f).same_other (g' := .build) nofun s
  exact htxv

theorem Transacted.nothingUndone {s t : State} (h : Transacted s t) : NothingUndone s t := by
  cases h with
  | writeFailed | sent | readFailed => exact ⟨id, nofun⟩
  | parsed n f => exact ⟨fun hst => absurd hst (parseInto_st_ne_stNone _ _ _), by simp [parseInto_txv]⟩

theorem Executed.nothingUndone {i : Instr} {s t : State} (h : Executed i s t) : NothingUndone s t := by
  cases h with
  | build => exact ⟨id, nofun⟩
  | check => exact ⟨id, id⟩
  | parse n f => exact ⟨fun hst => absurd hst (parseInto_st_ne_stNone n f s), (parseInto_txv n f s).symm.trans⟩
  | transaction _ _ ht => exact ht.nothingUndone

theorem Stepped.nothingUndone {s t : State} (h : Stepped s t) :
    NothingUndone s t ∨ ∃ rest, s.agenda.next = some (.reset, rest) := by
  cases h with
  | request _ _ _ _ _ _ hexec => exact .inl hexec.nothingUndone
  | reset rest ha => exact .inr ⟨rest, ha⟩
  | opened | closed => exact .inl ⟨id, id⟩

/-- Settles O44: a reset is `resetRegisters`, and every other step undoes nothing. -/
theorem onlyResetReachesStNoneOrClearsTxv : Obligations.OnlyResetReachesStNoneOrClearsTxv := by
  constructor
  · intro s rest hnext
    exact ⟨_, step_next hnext, ⟨⟨rfl, rfl⟩, ⟨rfl, rfl⟩, rfl, rfl, rfl, rfl⟩, rfl, rfl, rfl⟩
  · intro s t e rest hnext he hstep
    obtain h | ⟨rest', hreset⟩ := (step_cases hstep).nothingUndone
    · exact h
    · rw [hnext] at hreset
      cases hreset
      exact absurd rfl he

/-! ### The guards of a requester (R133) -/

theorem State.reading_eq_some_iff (s : State) (p : BitVec 16) : s.reading = some p ↔ s.st = stOk ∧ s.ppm = p := by
  simp [State.reading]

theorem State.commandFrame_eq_some_iff (s : State) (f : Frame) : s.commandFrame = some f ↔ s.txv = true ∧ s.txf = f := by
  simp [State.commandFrame]

theorem ckValid_of_mem_commandFrames {f : Frame} (hf : f ∈ commandFrames) : ckValid f = true := by
  revert f
  decide

/-- Settles O49: the invariant's clauses for `ST_OK` and for `TXV = 1`. -/
theorem guardedRegistersAreTrustworthy : Obligations.GuardedRegistersAreTrustworthy := by
  intro s hs
  constructor
  · intro p hp
    obtain ⟨hst, rfl⟩ := (s.reading_eq_some_iff p).1 hp
    obtain ⟨_, h0, h1, hc, hppm⟩ := hs.st_ok hst
    have hread : s.ppm = ppmOf s.eraw := BitVec.eq_of_toNat_eq (hppm.trans (ppmOf_toNat s.eraw).symm)
    exact ⟨(isRsp9_toBits_iff s.eraw).2 ⟨⟨h0, h1⟩, hc⟩, hread.trans (ppmOf_eq_append s.eraw)⟩
  · intro f hf
    obtain ⟨htxv, rfl⟩ := (s.commandFrame_eq_some_iff f).1 hf
    have hmem := hs.txf_built htxv
    exact ⟨hmem, ckValid_of_mem_commandFrames hmem⟩

end Sys2Proof.Machine
end

section
/-! The record of what was handed to the transport, before the first transaction (log 10). -/

namespace Sys2Proof.Machine

/-- An empty record is the sequence of no command frames. -/
theorem onlyCommandsHanded_of_handed_eq_nil {s : State} (h : s.transport.handed = []) : OnlyCommandsHanded s :=
  ⟨[], List.forall_mem_nil _, h⟩

theorem reset_handed : State.reset.transport.handed = [] := rfl

/-- Settles O47: the record is empty in `Transport.initial`, and an empty record holds nothing but whole command frames. -/
theorem nothingIsHandedOverAtReset : Obligations.NothingIsHandedOverAtReset :=
  ⟨reset_handed, onlyCommandsHanded_of_handed_eq_nil reset_handed⟩

end Sys2Proof.Machine
end
